-- ==== Sys2Proof/Word.lean ====
section
/-! DEFINITION. The word types of the KSC core (spec/00_scope.md R6, spec/30_encoding.md R62, R64). All values are unsigned, bit 0 least significant (R9). -/

namespace Sys2Proof

/-- `XLEN = 64`: the width of STATE, SEED and of the data field (R6). -/
abbrev Word := BitVec 64

/-- One byte of a block. -/
abbrev Byte := BitVec 8

/-- A cipher block, `W = 2` bytes; byte 0 is the more significant one (R43). -/
abbrev Block := BitVec 16

/-- A command word `CW = {op[3:0], len[3:0], data[63:0]}` (R62). -/
abbrev CommandWord := BitVec 72

/-- A response word `RW = {status[3:0], data[63:0]}` (R64). -/
abbrev ResponseWord := BitVec 68

end Sys2Proof
end

