-- ==== Sys2Proof/Config.lean ====
section
/-! DEFINITION. What is fixed for the machine (spec/00_scope.md R6, spec/10_state.md R26, R36) and its one open parameter, the latency (R8). -/

namespace Sys2Proof.Config

/-- The modulus `P = 2^61 - 1`, wired in a 64-bit constant (R26). -/
def P : Word := 0x1FFF_FFFF_FFFF_FFFF#64

/-- The generator `G = 2^31 - 1`, wired in a 64-bit constant (R26). -/
def G : Word := 0x0000_0000_7FFF_FFFF#64

/-- The cipher block width `W` in bytes, as the 4-bit `len` field carries it (R6, R63). -/
def blockBytes : BitVec 4 := 2#4

/-- Free value: `LAT(CW) - 1`, the edges a command stays BUSY before the one that completes it.
It has no body, so nothing can be proved about its values. [DESIGN CHOICE, log entry 3; unsafe for a claim that compares latencies] -/
opaque extraEdges : CommandWord → Nat

/-- `LAT(CW) ≥ 1`, finite, free otherwise (R8, R66). -/
def lat (cw : CommandWord) : Nat := extraEdges cw + 1

end Sys2Proof.Config
end

