-- ==== Sys2Proof/Syntax.lean ====
section
/-! DEFINITION. The commands of the KSC core: one constructor per row of spec/opcode_table.json (spec/30_encoding.md R68). A constructor carries the fields its command reads and no ignored field (R63, R72). -/

namespace Sys2Proof

/-- The nine rows of the opcode table. None is a read-modify-write of shared data, a load-reserved or store-conditional, a semaphore or a fence (R50, R51). -/
inductive Instr where
  /-- STATUS, `op = 0x0` (R190). -/
  | status
  /-- INIT, `op = 0x1`: construction with a 64-bit seed (R120). -/
  | init (seed : Word)
  /-- RESET, `op = 0x2`: the source's `reset()` (R125). -/
  | reset
  /-- ADV, `op = 0x3`: one advance of the keystream (R130). -/
  | adv
  /-- KEYWIN, `op = 0x4`: the 16-bit key window (R135). -/
  | keywin
  /-- PUBKEY, `op = 0x5`: the public key (R140). -/
  | pubkey
  /-- ENC, `op = 0x6`: the block length in bytes and the block (R160). -/
  | enc (len : BitVec 4) (block : Block)
  /-- DEC, `op = 0x7` (R165). -/
  | dec (len : BitVec 4) (block : Block)
  /-- A reserved opcode, `op = 0x8 … 0xF` (R193). -/
  | reserved (op : BitVec 4)
  deriving DecidableEq, Repr

/-- The row's mnemonic in the opcode table. -/
def Instr.mnemonic : Instr → String
  | .status => "STATUS"
  | .init _ => "INIT"
  | .reset => "RESET"
  | .adv => "ADV"
  | .keywin => "KEYWIN"
  | .pubkey => "PUBKEY"
  | .enc _ _ => "ENC"
  | .dec _ _ => "DEC"
  | .reserved _ => "RESERVED"

/-- One row of spec/opcode_table.json: a word `cw` is the row's when `cw &&& mask = pattern` (R68). -/
structure OpcodeRow where
  mnemonic : String
  mask : CommandWord
  pattern : CommandWord
  deriving DecidableEq, Repr

end Sys2Proof
end

