-- ==== Sys2Proof/WellFormed.lean ====
section
/-! DEFINITION. Which terms of Instr stand for command words. Every value of a seed, of a length and of a block is encodable (spec/30_encoding.md R63, spec/41_keystream.md R122); the only check is that a reserved command's opcode is one of 0x8 … 0xF (R71). -/

namespace Sys2Proof

/-- The instruction has an encoding: `reserved op` needs `op[3] = 1` (R68, R69). -/
def Instr.wellFormed : Instr → Bool
  | .status => true
  | .init _ => true
  | .reset => true
  | .adv => true
  | .keywin => true
  | .pubkey => true
  | .enc _ _ => true
  | .dec _ _ => true
  | .reserved op => op.getLsbD 3

end Sys2Proof
end

