-- ==== Sys2Proof/Decode.lean ====
section
/-! DEFINITION. Decoding of 72-bit command words, total and by `op` alone (spec/30_encoding.md R62, R68–R73), and after it the encoder (R62, R74). -/

namespace Sys2Proof

/-- `CW = {op, len, data}` (R62). -/
def commandWord (op len : BitVec 4) (data : Word) : CommandWord := op ++ len ++ data

/-- `op = CW[71:68]` (R62). -/
def opField (cw : CommandWord) : BitVec 4 := cw.extractLsb' 68 4

/-- `LEN = CW[67:64]` (R70). -/
def lenField (cw : CommandWord) : BitVec 4 := cw.extractLsb' 64 4

/-- `SEEDIN = CW[63:0]` (R70). -/
def dataField (cw : CommandWord) : Word := cw.extractLsb' 0 64

/-- `BLK = CW[15:0]` (R70). -/
def blockField (cw : CommandWord) : Block := cw.extractLsb' 0 16

/-- The decoder: every word is some row's, selected by `op` alone (R68, R69). -/
def decode (cw : CommandWord) : Instr :=
  if opField cw = 0x0#4 then .status
  else if opField cw = 0x1#4 then .init (dataField cw)
  else if opField cw = 0x2#4 then .reset
  else if opField cw = 0x3#4 then .adv
  else if opField cw = 0x4#4 then .keywin
  else if opField cw = 0x5#4 then .pubkey
  else if opField cw = 0x6#4 then .enc (lenField cw) (blockField cw)
  else if opField cw = 0x7#4 then .dec (lenField cw) (blockField cw)
  else .reserved (opField cw)

/-- The opcode of a command (R68). -/
def Instr.opcode : Instr → BitVec 4
  | .status => 0x0#4
  | .init _ => 0x1#4
  | .reset => 0x2#4
  | .adv => 0x3#4
  | .keywin => 0x4#4
  | .pubkey => 0x5#4
  | .enc _ _ => 0x6#4
  | .dec _ _ => 0x7#4
  | .reserved op => op

/-- The encoder: ignored fields are written 0, as assemblers write them (R72, R74). -/
def encode : Instr → CommandWord
  | .status => commandWord 0x0#4 0#4 0#64
  | .init seed => commandWord 0x1#4 0#4 seed
  | .reset => commandWord 0x2#4 0#4 0#64
  | .adv => commandWord 0x3#4 0#4 0#64
  | .keywin => commandWord 0x4#4 0#4 0#64
  | .pubkey => commandWord 0x5#4 0#4 0#64
  | .enc len block => commandWord 0x6#4 len (block.setWidth 64)
  | .dec len block => commandWord 0x7#4 len (block.setWidth 64)
  | .reserved op => commandWord op 0#4 0#64

/-- spec/opcode_table.json, row by row: mnemonic, mask, match. -/
def opcodeTable : List OpcodeRow :=
  [ ⟨"STATUS", 0xF00000000000000000#72, 0x000000000000000000#72⟩,
    ⟨"INIT", 0xF00000000000000000#72, 0x100000000000000000#72⟩,
    ⟨"RESET", 0xF00000000000000000#72, 0x200000000000000000#72⟩,
    ⟨"ADV", 0xF00000000000000000#72, 0x300000000000000000#72⟩,
    ⟨"KEYWIN", 0xF00000000000000000#72, 0x400000000000000000#72⟩,
    ⟨"PUBKEY", 0xF00000000000000000#72, 0x500000000000000000#72⟩,
    ⟨"ENC", 0xF00000000000000000#72, 0x600000000000000000#72⟩,
    ⟨"DEC", 0xF00000000000000000#72, 0x700000000000000000#72⟩,
    ⟨"RESERVED", 0x800000000000000000#72, 0x800000000000000000#72⟩ ]

/-- The rows a word matches (R68: `CW & mask = match`). -/
def matchingRows (cw : CommandWord) : List OpcodeRow :=
  opcodeTable.filter (fun r => cw &&& r.mask == r.pattern)

/-- What the port cannot carry: there is one format, a single 72-bit word (R73). -/
inductive FrameError where
  /-- more bits than a command word has -/
  | tooManyBits
  /-- the value does not fit the stated number of bits -/
  | valueTooWide
  deriving DecidableEq, Repr

/-- A table word of `nbits` bits with value `w` as a command word. The spec has only the 72-bit word (R73):
a shorter word stands for the command word whose bits above `nbits` are 0, a longer one or a value that does not fit for none.
[DESIGN CHOICE, log entry 13; safe] -/
def frame (nbits w : Nat) : Except FrameError CommandWord :=
  if nbits ≤ 72 then
    if w < 2 ^ nbits then .ok (BitVec.ofNat 72 w) else .error .valueTooWide
  else .error .tooManyBits

/-- The instruction the decoder reads from a table word (bit 0 least significant, R9; shorter words: log entry 13). -/
def decodeTableWord (nbits w : Nat) : Option Instr :=
  match frame nbits w with
  | .ok cw => some (decode cw)
  | .error _ => none

end Sys2Proof
end

