-- ==== Sys2Proof/Machine/State.lean ====
section
/-! DEFINITION. The state of one KSC core (spec/10_state.md R20–R25, R34; spec/30_encoding.md R65), the pins of its port (R60), its reset state (R31) and the reasons a step can stop (none: spec/43_control.md R195). -/

namespace Sys2Proof.Machine

/-- `PHASE ∈ {IDLE, BUSY, RESP}` (R34). -/
inductive Phase where
  | idle
  | busy
  | resp
  deriving DecidableEq, Repr

/-- The six status codes a response can carry; 0x6–0xF are never produced (R200). -/
inductive Status where
  | ok
  | invalidBlockSize
  | notConfigured
  | seedImmutable
  | illegalCommand
  | noAdvanceYet
  deriving DecidableEq, Repr

/-- The input pins at one rising edge of `clk` (R60). -/
structure PortIn where
  rstN : Bool
  cmdValid : Bool
  cmdOp : BitVec 4
  cmdLen : BitVec 4
  cmdData : Word
  rspReady : Bool
  deriving DecidableEq, Repr

/-- The output pins (R60). -/
structure PortOut where
  cmdReady : Bool
  rspValid : Bool
  rspStatus : BitVec 4
  rspData : Word
  deriving DecidableEq, Repr

/-- A response `(status, data)` (R64). -/
structure Response where
  status : BitVec 4
  data : Word
  deriving DecidableEq, Repr

/-- The architectural registers, exactly those of R20; with the responses, the result of a run (R255). -/
structure Registers where
  state : Word
  seed : Word
  cfg : Bool
  adv : Bool
  errf : BitVec 5
  deriving DecidableEq, Repr

/-- The registers of one KSC core, and the pins the host drives at the coming edges. -/
structure State where
  /-- STATE, the keystream's 64-bit value (R21). -/
  state : Word
  /-- SEED, the exponent parameter (R22). -/
  seed : Word
  /-- CFG, "configured" (R23). -/
  cfg : Bool
  /-- ADV, "advanced" (R24). -/
  adv : Bool
  /-- ERRF[4:0], sticky error flags (R25). -/
  errf : BitVec 5
  /-- PHASE of the command port (R34). -/
  phase : Phase
  /-- RSP_STATUS[3:0] (R34). -/
  rspStatus : BitVec 4
  /-- RSP_DATA[63:0] (R34). -/
  rspData : Word
  /-- CW, the command word captured at acceptance (R65). -/
  cw : CommandWord
  /-- `remaining`, the edges left before the completing one (R65). -/
  remaining : Nat
  /-- The model's own: the pins at the coming rising edges, in order (R60, R222). [log entry 2] -/
  host : List PortIn
  deriving DecidableEq, Repr

/-- The registers of R20. -/
def State.registers (s : State) : Registers := ⟨s.state, s.seed, s.cfg, s.adv, s.errf⟩

/-- Faults: none. `Execute` is total and never stuck (R195), and errors are responses, not traps (R208);
so no step raises a fault and the type has no constructor (safe: it allows nothing the core forbids). -/
inductive Fault where
  deriving DecidableEq, Repr

/-- Refusals. -/
inductive Refusal where
  /-- An instruction without a meaning, raised by exec's arm for it; no arm is left in that form
  (safe: a refusal proves nothing about the hardware). -/
  | notModelled (mnemonic : String)
  deriving DecidableEq, Repr

/-- The core after a hardware reset (R31), with no pins queued.
`cw` and `remaining` have no reset value in the spec: 0 [DESIGN CHOICE, log entry 1; unsafe];
`host` is empty [DESIGN CHOICE, log entry 2; safe]. -/
def State.reset : State where
  state := Config.G
  seed := 0x0#64
  cfg := false
  adv := false
  errf := 0b00000#5
  phase := .idle
  rspStatus := 0x0#4
  rspData := 0x0#64
  cw := 0x0#72
  remaining := 0
  host := []

end Sys2Proof.Machine
end

