-- ==== Sys2Proof/Machine/Flags.lean ====
section
/-! DEFINITION. Status codes, the sticky error flags and the STATUS word (spec/60_exceptions.md R200, spec/10_state.md R25, R30). The core has no arithmetic flags (R29). -/

namespace Sys2Proof.Machine

/-- The 4-bit code of a status (R200). -/
def Status.code : Status → BitVec 4
  | .ok => 0x0#4
  | .invalidBlockSize => 0x1#4
  | .notConfigured => 0x2#4
  | .seedImmutable => 0x3#4
  | .illegalCommand => 0x4#4
  | .noAdvanceYet => 0x5#4

/-- The mask of the ERRF bit `k - 1` that error code `k` sets; OK sets none (R25, R200). -/
def Status.errBit : Status → BitVec 5
  | .ok => 0b00000#5
  | .invalidBlockSize => 0b00001#5
  | .notConfigured => 0b00010#5
  | .seedImmutable => 0b00100#5
  | .illegalCommand => 0b01000#5
  | .noAdvanceYet => 0b10000#5

/-- `STATUSWORD = zext_64({ERRF[4:0], 0b000000, ADV, CFG})` (R30). -/
def State.statusWord (s : State) : Word :=
  (s.errf ++ 0b000000#6 ++ BitVec.ofBool s.adv ++ BitVec.ofBool s.cfg).setWidth 64

end Sys2Proof.Machine
end

