-- ==== Sys2Proof/Machine/ModExp.lean ====
section
/-! DEFINITION. The modular exponentiation pipeline, `power_mod` (spec/40_modexp.md R100–R110): the literal loop that defines its value, and the square-and-multiply method of R103 that the machine runs. -/

namespace Sys2Proof.Machine

/-- The loop of R100 on exact naturals: `temp` starts at `b` and is multiplied by `b` and reduced, `e` times. -/
def powerModLoop (b : Nat) : Nat → Nat
  | 0 => b
  | e + 1 => powerModLoop b e * b % Config.P.toNat

/-- The loop of R103's `pm_fast` over `bits` exponent bits, lowest first:
the accumulator `r` takes `x` where the bit is 1, and `x` is squared. Products are exact (R102).
[DESIGN CHOICE of the method, which I2 leaves open, log entry 4; safe] -/
def powerModBits : Nat → Nat → Nat → Nat → Nat
  | 0, _, r, _ => r
  | bits + 1, e, r, x =>
    powerModBits bits (e / 2)
      (if e % 2 = 1 then r * x % Config.P.toNat else r)
      (x * x % Config.P.toNat)

/-- `power_mod(b, e) = b^(e+1) mod P` (R100, R101), with `e + 1` kept in 65 bits (R103, R108).
For `b ≥ P`, which no command passes, it is `b^(e+1) mod P` too (R104). [DESIGN CHOICE, log entry 5; safe] -/
def powerMod (b e : Word) : Word :=
  BitVec.ofNat 64 (powerModBits 65 (e.toNat + 1) 1 b.toNat)

end Sys2Proof.Machine
end

