-- ==== Sys2Proof/Machine/Operands.lean ====
section
/-! DEFINITION. Operand forms: the byte lanes of a block and of the key window (spec/20_memory.md R42, R43), zero extension of a 16-bit result (R47), the response word (R64). The fields of a command word are read in Decode.lean (R70). -/

namespace Sys2Proof.Machine

/-- Byte 0 of a block, `BLK[15:8]` (R43). -/
def byte0 (b : Block) : Byte := b.extractLsb' 8 8

/-- Byte 1 of a block, `BLK[7:0]` (R43). -/
def byte1 (b : Block) : Byte := b.extractLsb' 0 8

/-- The block of the bytes `[b0, b1]` (R43): `(b0 << 8) | b1` (R170). -/
def blockOf (b0 b1 : Byte) : Block := b0 ++ b1

/-- `zext_64` of a 16-bit value (R10, R47). -/
def zext64 (b : Block) : Word := b.setWidth 64

/-- The low 16 bits of a word: the key window of a STATE value (R136), or the block lanes of response data. -/
def low16 (w : Word) : Block := w.extractLsb' 0 16

/-- ENC and DEC accept exactly `len = W = 2` (R46, R163). -/
def blockLengthOk (len : BitVec 4) : Bool := len == Config.blockBytes

/-- `RW = {status, data}` (R64). -/
def Response.word (r : Response) : ResponseWord := r.status ++ r.data

end Sys2Proof.Machine
end

