-- ==== Sys2Proof/Machine/Ops.lean ====
section
/-! DEFINITION. The named operations over the registers: ending a command with a response or with an error (spec/00_scope.md R10), the check for CFG (spec/60_exceptions.md R202), the advance (spec/41_keystream.md R130), the key window (R136), hardware reset (spec/70_reset_and_hazards.md R240). There is no memory (R40). -/

namespace Sys2Proof.Machine

/-- `respond(status, data)` ends a command (R10, R64). -/
def respond (st : Status) (data : Word) (s : State) : State :=
  { s with rspStatus := st.code, rspData := data }

/-- `raise Err(code)`: the core's whole error mechanism (R10, R200, R208).
It sets the code's sticky flag and responds `(code, 0x0)`; it saves nothing and moves nothing, and there is no return from it (R211). -/
def raiseErr (e : Status) (s : State) : State :=
  respond e 0x0#64 { s with errf := s.errf ||| e.errBit }

/-- The check of every command but STATUS, INIT and the reserved ones: NOT_CONFIGURED while `CFG = 0` (R202, R206). -/
def whenConfigured (body : State → State) (s : State) : State :=
  if s.cfg then body s else raiseErr .notConfigured s

/-- One advance: `STATE <- power_mod(STATE, SEED)`, `ADV <- 1` (R130). -/
def advance (s : State) : State :=
  { s with state := powerMod s.state s.seed, adv := true }

/-- The key window `KW = STATE[15:0]`, derived at the moment of use (R136). -/
def keyWindow (s : State) : Block := low16 s.state

/-- The cipher step of ENC and DEC after their checks: advance first, then XOR with the new window (R160, R161, R165). -/
def cipherStep (block : Block) (s : State) : State :=
  let t := advance s
  respond .ok (zext64 (block ^^^ keyWindow t)) t

/-- ENC and DEC: NOT_CONFIGURED, then INVALID_BLOCK_SIZE before any state changes, then the cipher step (R160, R163, R206). -/
def cipherCommand (len : BitVec 4) (block : Block) (s : State) : State :=
  whenConfigured
    (fun s => if blockLengthOk len then cipherStep block s else raiseErr .invalidBlockSize s) s

/-- `HardwareReset()` (R240). The pseudocode writes neither `CW` nor `remaining`: they keep their values. [DEDUCED, log entry 1; unsafe] -/
def hardwareReset (s : State) : State :=
  { s with
    state := Config.G
    seed := 0x0#64
    cfg := false
    adv := false
    errf := 0b00000#5
    phase := .idle
    rspStatus := 0x0#4
    rspData := 0x0#64 }

end Sys2Proof.Machine
end

