-- ==== Sys2Proof/Machine/Cipher.lean ====
section
/-! DEFINITION. The XOR cipher block's commands: ENC and DEC (spec/42_cipher.md R160–R166). -/

namespace Sys2Proof.Machine

/-- ENC advances the keystream and responds with the block XORed with the new key window (R160). -/
def execEnc (len : BitVec 4) (block : Block) (s : State) : Host.Outcome State Fault Refusal :=
  .next (cipherCommand len block s)

/-- DEC performs exactly the ENC operation (R165). -/
def execDec (len : BitVec 4) (block : Block) (s : State) : Host.Outcome State Fault Refusal :=
  .next (cipherCommand len block s)

end Sys2Proof.Machine
end

