-- ==== Sys2Proof/Machine/Control.lean ====
section
/-! DEFINITION. The control commands: STATUS and the reserved opcodes (spec/43_control.md R190, R193). -/

namespace Sys2Proof.Machine

/-- STATUS responds with the STATUS word in every state and writes nothing else (R190). -/
def execStatus (s : State) : Host.Outcome State Fault Refusal :=
  .next (respond .ok s.statusWord s)

/-- A reserved opcode ends in ILLEGAL_COMMAND, whatever `op`, `len`, `data` and CFG are (R193, R204). -/
def execReserved (_op : BitVec 4) (s : State) : Host.Outcome State Fault Refusal :=
  .next (raiseErr .illegalCommand s)

end Sys2Proof.Machine
end

