-- ==== Sys2Proof/Machine/Keystream.lean ====
section
/-! DEFINITION. The keystream state machine's commands: INIT, RESET, ADV, KEYWIN, PUBKEY (spec/41_keystream.md R120–R141), and the keystream as a sequence (R145). -/

namespace Sys2Proof.Machine

/-- INIT is construction: SEED_IMMUTABLE if `CFG = 1`, else it loads the seed (R120, R203). -/
def execInit (seed : Word) (s : State) : Host.Outcome State Fault Refusal :=
  .next <|
    if s.cfg then raiseErr .seedImmutable s
    else respond .ok 0x0#64 { s with seed := seed, state := Config.G, cfg := true, adv := false }

/-- RESET returns STATE to the generator and leaves SEED and ADV alone (R125, R126). -/
def execReset (s : State) : Host.Outcome State Fault Refusal :=
  .next (whenConfigured (fun s => respond .ok 0x0#64 { s with state := Config.G }) s)

/-- ADV applies the one-way step; its response never carries STATE (R130). -/
def execAdv (s : State) : Host.Outcome State Fault Refusal :=
  .next (whenConfigured (fun s => respond .ok 0x0#64 (advance s)) s)

/-- KEYWIN responds with the key window, once an advance has been made since INIT (R135, R205). -/
def execKeywin (s : State) : Host.Outcome State Fault Refusal :=
  .next <|
    whenConfigured
      (fun s => if s.adv then respond .ok (zext64 (keyWindow s)) s else raiseErr .noAdvanceYet s) s

/-- PUBKEY responds with `power_mod(G, SEED)`; it needs no advance (R140). -/
def execPubkey (s : State) : Host.Outcome State Fault Refusal :=
  .next (whenConfigured (fun s => respond .ok (powerMod Config.G s.seed) s) s)

/-- The keystream sequence of a seed: `S_0 = G`, `S_(i+1) = power_mod(S_i, s)` (R145). -/
def keystream (seed : Word) : Nat → Word
  | 0 => Config.G
  | i + 1 => powerMod (keystream seed i) seed

/-- The `i`-th key window of a seed, `K_i = S_i[15:0]` (R145). -/
def keystreamWindow (seed : Word) (i : Nat) : Block := low16 (keystream seed i)

end Sys2Proof.Machine
end

