-- ==== Sys2Proof/Machine/Dispatch.lean ====
section
/-! DEFINITION. The dispatch of `Execute` (spec/43_control.md R195): one arm per constructor of Instr. -/

namespace Sys2Proof.Machine

def exec (i : Instr) (s : State) : Host.Outcome State Fault Refusal :=
  match i with
  | .status => Sys2Proof.Machine.execStatus s
  | .init seed => Sys2Proof.Machine.execInit seed s
  | .reset => Sys2Proof.Machine.execReset s
  | .adv => Sys2Proof.Machine.execAdv s
  | .keywin => Sys2Proof.Machine.execKeywin s
  | .pubkey => Sys2Proof.Machine.execPubkey s
  | .enc len block => Sys2Proof.Machine.execEnc len block s
  | .dec len block => Sys2Proof.Machine.execDec len block s
  | .reserved op => Sys2Proof.Machine.execReserved op s

end Sys2Proof.Machine
end

