-- ==== Sys2Proof/Machine/Ports.lean ====
section
/-! DEFINITION. The ports of the core: outputs as functions of the registers and `rst_n`, and when a command is accepted and a response consumed (spec/30_encoding.md R60, R61, R65). -/

namespace Sys2Proof.Machine

/-- The pins when the host asks for nothing: no reset, no command offered, no response taken. -/
def PortIn.quiet : PortIn where
  rstN := true
  cmdValid := false
  cmdOp := 0#4
  cmdLen := 0#4
  cmdData := 0#64
  rspReady := false

/-- The host offers a command word (R60, R62). -/
def PortIn.offer (cw : CommandWord) : PortIn :=
  { PortIn.quiet with
    cmdValid := true, cmdOp := opField cw, cmdLen := lenField cw, cmdData := dataField cw }

/-- The host takes a response (R60). -/
def PortIn.take : PortIn := { PortIn.quiet with rspReady := true }

/-- The host asserts hardware reset, with the rest of the pins quiet (R222). -/
def PortIn.assertReset : PortIn := { PortIn.quiet with rstN := false }

/-- The command word the pins carry, `{cmd_op, cmd_len, cmd_data}` (R62, R65). -/
def PortIn.commandWord (p : PortIn) : CommandWord :=
  Sys2Proof.commandWord p.cmdOp p.cmdLen p.cmdData

/-- `cmd_ready = 1` iff `PHASE = IDLE` and `rst_n = 1` (R60). -/
def cmdReady (p : PortIn) (s : State) : Bool := p.rstN && s.phase == .idle

/-- `rsp_valid = 1` iff `PHASE = RESP`, and 0 while `rst_n = 0` (R60, R61). [DEDUCED, log entry 6; safe] -/
def rspValid (p : PortIn) (s : State) : Bool := p.rstN && s.phase == .resp

/-- The response register pair as a response (R60, R64). -/
def State.response (s : State) : Response := ⟨s.rspStatus, s.rspData⟩

/-- The output pins (R60). -/
def outputs (p : PortIn) (s : State) : PortOut where
  cmdReady := cmdReady p s
  rspValid := rspValid p s
  rspStatus := s.rspStatus
  rspData := s.rspData

/-- A command is accepted at an edge with `rst_n = 1`, `cmd_valid = 1` and `cmd_ready = 1` (R65). -/
def accepted (p : PortIn) (s : State) : Bool := p.cmdValid && cmdReady p s

/-- A response is consumed at an edge with `rst_n = 1`, `rsp_valid = 1` and `rsp_ready = 1` (R65). -/
def consumed (p : PortIn) (s : State) : Bool := p.rspReady && rspValid p s

end Sys2Proof.Machine
end

