-- ==== Sys2Proof/Machine/Clock.lean ====
section
/-! DEFINITION. One rising edge of `clk`: the process of spec/30_encoding.md R65, with hardware reset first (spec/70_reset_and_hazards.md R240). -/

namespace Sys2Proof.Machine

/-- Acceptance: `CW <- {cmd_op, cmd_len, cmd_data}; PHASE <- BUSY; remaining <- LAT(CW) - 1` (R65).
`edge` accepts in IDLE only, so at most one command is outstanding (R44, R51). -/
def accept (cw : CommandWord) (s : State) : State :=
  { s with cw := cw, phase := .busy, remaining := Config.lat cw - 1 }

/-- Completion: `(RSP_STATUS, RSP_DATA) <- Execute(CW); PHASE <- RESP` (R65, R195).
The whole effect of the command is applied at this one edge: the atomicity that is the core's only synchronisation (R44, R51). -/
def complete (s : State) : Host.Outcome State Fault Refusal :=
  match exec (decode s.cw) s with
  | .next t => .next { t with phase := .resp }
  | .fault r => .fault r
  | .refused r => .refused r

/-- The process of R65 at one rising edge, with the pins `p`. -/
def edge (p : PortIn) (s : State) : Host.Outcome State Fault Refusal :=
  if p.rstN then
    match s.phase with
    | .idle => .next (if p.cmdValid then accept p.commandWord s else s)
    | .busy => if s.remaining = 0 then complete s else .next { s with remaining := s.remaining - 1 }
    | .resp => .next (if p.rspReady then { s with phase := .idle } else s)
  else .next (hardwareReset s)

/-- The pins at the coming edge: the head of the host's queue, quiet when it is empty. [DESIGN CHOICE, log entry 2; safe] -/
def State.pins (s : State) : PortIn := s.host.headD PortIn.quiet

/-- The queue moves on by one edge. -/
def State.nextPins (s : State) : State := { s with host := s.host.tail }

end Sys2Proof.Machine
end

