-- ==== Sys2Proof/Machine/Step.lean ====
section
/-! DEFINITION. One step of the machine is one rising edge of `clk` with the next pins of the host's queue (spec/30_encoding.md R61, R65); and where a table word stands for step to run it. -/

namespace Sys2Proof.Machine

/-- One rising edge of `clk`. -/
def step (s : State) : Host.Outcome State Fault Refusal := edge s.pins s.nextPins

/-- `s` with a command word captured in CW, its latency elapsed, and one quiet edge before the host's further pins:
the very next step executes exactly that word. The core fetches nothing (R28); CW is where `Execute` reads its command (R65). [log entry 7]
The bits of the word above `nbits` are 0, as in `frame`. [log entry 13] -/
def State.withFetchWord (s : State) (nbits w : Nat) : State :=
  { s with
    cw := BitVec.ofNat 72 (w % 2 ^ nbits)
    phase := .busy
    remaining := 0
    host := PortIn.quiet :: s.host }

end Sys2Proof.Machine
end

