-- ==== Sys2Proof/Machine/Assembler.lean ====
section
/-! DEFINITION. The KSC command assembly language (spec/30_encoding.md R74): abstract lines, the word each stands for, and the reading of a line of text. It is host tooling, no part of the core. -/

namespace Sys2Proof.Machine

/-- The nine forms of R74's table, with operands as written (any natural number), and `ADVN k` of R75. -/
inductive AsmLine where
  | status
  | init (s : Nat)
  | reset
  | adv
  | keywin
  | pubkey
  | enc (b : Nat)
  | dec (b : Nat)
  | encLen (n d : Nat)
  | decLen (n d : Nat)
  | cmd (o n d : Nat)
  | advn (k : Nat)
  deriving DecidableEq, Repr

/-- A raw word `{o, n, d}`, or none when an operand is out of range (R74). -/
def rawWord (o n d : Nat) : Option CommandWord :=
  if o < 2 ^ 4 ∧ n < 2 ^ 4 ∧ d < 2 ^ 64 then
    some (commandWord (BitVec.ofNat 4 o) (BitVec.ofNat 4 n) (BitVec.ofNat 64 d))
  else none

/-- `ENC b` and `DEC b`: `b > 0xFFFF` is an assembly error, not a truncation (R74). -/
def blockWord (o b : Nat) : Option CommandWord :=
  if b < 2 ^ 16 then rawWord o 2 b else none

/-- The command words of a line; none is an assembly error (R74, R75). -/
def assemble : AsmLine → Option (List CommandWord)
  | .status => (rawWord 0x0 0 0).map ([·])
  | .init s => (rawWord 0x1 0 s).map ([·])
  | .reset => (rawWord 0x2 0 0).map ([·])
  | .adv => (rawWord 0x3 0 0).map ([·])
  | .keywin => (rawWord 0x4 0 0).map ([·])
  | .pubkey => (rawWord 0x5 0 0).map ([·])
  | .enc b => (blockWord 0x6 b).map ([·])
  | .dec b => (blockWord 0x7 b).map ([·])
  | .encLen n d => (rawWord 0x6 n d).map ([·])
  | .decLen n d => (rawWord 0x7 n d).map ([·])
  | .cmd o n d => (rawWord o n d).map ([·])
  | .advn k => (rawWord 0x3 0 0).map (List.replicate k)

/-- The value of a digit in a base of at most 16, `a` to `f` in either case. [DESIGN CHOICE, log entry 9; safe] -/
def digit (base : Nat) (c : Char) : Option Nat :=
  let v :=
    if '0'.toNat ≤ c.toNat ∧ c.toNat ≤ '9'.toNat then c.toNat - '0'.toNat
    else if 'a'.toNat ≤ c.toNat ∧ c.toNat ≤ 'f'.toNat then c.toNat - 'a'.toNat + 10
    else if 'A'.toNat ≤ c.toNat ∧ c.toNat ≤ 'F'.toNat then c.toNat - 'A'.toNat + 10
    else base
  if v < base then some v else none

/-- Digits read onto the value so far. -/
def digits (base : Nat) : Nat → List Char → Option Nat
  | acc, [] => some acc
  | acc, c :: cs =>
    match digit base c with
    | some v => digits base (acc * base + v) cs
    | none => none

/-- A number, decimal or `0x` hexadecimal, where `_` is only a digit separator (R9, R74):
every `_` after `0x` is dropped, a leading or trailing one too. [DESIGN CHOICE, log entry 9; safe] -/
def number : List Char → Option Nat
  | '0' :: 'x' :: cs =>
    match cs.filter (· != '_') with
    | [] => none
    | ds => digits 16 0 ds
  | [] => none
  | ds => digits 10 0 ds

/-- White space between the parts of a line. [DESIGN CHOICE, log entry 9; safe] -/
def isBlank (c : Char) : Bool := c == ' ' || c == '\t' || c == '\r'

/-- A text without blanks at its two ends. -/
def trim (cs : List Char) : List Char :=
  ((cs.dropWhile isBlank).reverse.dropWhile isBlank).reverse

/-- The parts of a text between commas. -/
def commaParts : List Char → List (List Char)
  | [] => [[]]
  | c :: cs =>
    if c == ',' then [] :: commaParts cs
    else
      match commaParts cs with
      | [] => [[c]]
      | p :: ps => (c :: p) :: ps

/-- The operands of a line, every one a number. -/
def operands (cs : List Char) : Option (List Nat) :=
  match trim cs with
  | [] => some []
  | ds => (commaParts ds).mapM (fun p => number (trim p))

/-- Mnemonic, `/len` and operands together (R74), and `ADVN k` (R75).
ENCBUF, DECBUF and REDECRYPT are no lines of text: their expansions stop at a response, so they are the host operations of HostSide.lean.
[DESIGN CHOICE, log entry 12; safe] -/
def lineOf (mnemonic : List Char) (len : Option Nat) (ops : List Nat) : Option AsmLine :=
  match mnemonic, len, ops with
  | ['S', 'T', 'A', 'T', 'U', 'S'], none, [] => some .status
  | ['I', 'N', 'I', 'T'], none, [s] => some (.init s)
  | ['R', 'E', 'S', 'E', 'T'], none, [] => some .reset
  | ['A', 'D', 'V'], none, [] => some .adv
  | ['K', 'E', 'Y', 'W', 'I', 'N'], none, [] => some .keywin
  | ['P', 'U', 'B', 'K', 'E', 'Y'], none, [] => some .pubkey
  | ['E', 'N', 'C'], none, [b] => some (.enc b)
  | ['D', 'E', 'C'], none, [b] => some (.dec b)
  | ['E', 'N', 'C'], some n, [d] => some (.encLen n d)
  | ['D', 'E', 'C'], some n, [d] => some (.decLen n d)
  | ['.', 'c', 'm', 'd'], none, [o, n, d] => some (.cmd o n d)
  | ['A', 'D', 'V', 'N'], none, [k] => some (.advn k)
  | _, _, _ => none

/-- One line of text (R74): the outer Option is the assembly error, the inner one is none for a line
that holds nothing but blanks and a comment. [log entry 9] -/
def parseLine (text : List Char) : Option (Option AsmLine) :=
  match trim (text.takeWhile (· != ';')) with
  | [] => some none
  | code =>
    let head := code.takeWhile (fun c => !isBlank c)
    let rest := code.dropWhile (fun c => !isBlank c)
    let mnemonic := head.takeWhile (· != '/')
    match operands rest, head.dropWhile (· != '/') with
    | some ops, [] => (lineOf mnemonic none ops).map some
    | some ops, _ :: n =>
      match number n with
      | some len => (lineOf mnemonic (some len) ops).map some
      | none => none
    | none, _ => none

/-- The command words of a line of text; none is an assembly error (R74). -/
def assembleText (text : List Char) : Option (List CommandWord) :=
  match parseLine text with
  | some (some line) => assemble line
  | some none => some []
  | none => none

end Sys2Proof.Machine
end

