-- ==== Sys2Proof/Machine/Run.lean ====
section
/-! DEFINITION. Runs: one command as one transaction, `Execute(CW)` (spec/43_control.md R195, spec/00_scope.md R11), a host's sequence of commands (spec/70_reset_and_hazards.md R255), and a run of clock edges with the commands it accepts and the responses it delivers (spec/30_encoding.md R65). -/

namespace Sys2Proof.Machine

/-- `Execute(CW)`: one command as one indivisible step; its response is the pair of response registers after it (R44, R51, R195). -/
def transact (cw : CommandWord) (s : State) : Host.Outcome State Fault Refusal :=
  exec (decode cw) s

/-- A run of a host program: the responses in order, and the final state (R255). -/
def runCommands : List CommandWord → State → Host.Outcome (List Response × State) Fault Refusal
  | [], s => .next ([], s)
  | cw :: rest, s =>
    match transact cw s with
    | .next t =>
      match runCommands rest t with
      | .next (rs, u) => .next (t.response :: rs, u)
      | .fault r => .fault r
      | .refused r => .refused r
    | .fault r => .fault r
    | .refused r => .refused r

/-- What the host sees of a run of edges: the words accepted and the responses consumed, each in order (R65). -/
structure Trace where
  words : List CommandWord
  responses : List Response
  deriving DecidableEq, Repr

/-- One more edge in front of a trace. -/
def Trace.record (s : State) (tr : Trace) : Trace where
  words := if accepted s.pins s then s.pins.commandWord :: tr.words else tr.words
  responses := if consumed s.pins s then s.response :: tr.responses else tr.responses

/-- `n` rising edges, with their trace. -/
def runEdges : Nat → State → Host.Outcome (Trace × State) Fault Refusal
  | 0, s => .next (⟨[], []⟩, s)
  | n + 1, s =>
    match step s with
    | .next t =>
      match runEdges n t with
      | .next (tr, u) => .next (tr.record s, u)
      | .fault r => .fault r
      | .refused r => .refused r
    | .fault r => .fault r
    | .refused r => .refused r

end Sys2Proof.Machine
end

