-- ==== Sys2Proof/Machine/HostSide.lean ====
section
/-! DEFINITION. The host's side: the pseudo-instructions ADVN, ENCBUF, DECBUF, REDECRYPT as sequences of commands (spec/30_encoding.md R75, spec/42_cipher.md R170–R173), and a host that sends commands one after another over the port (spec/60_exceptions.md R222). None of it is state or behaviour of the core. -/

namespace Sys2Proof.Machine

/-- `ADVN k`: `k` copies of ADV (R75). -/
def advn (k : Nat) : List CommandWord := List.replicate k (encode .adv)

/-- A host buffer cut into 2-byte blocks in order; none when its length is odd (R170). There is no padding (R173). -/
def bufferBlocks : List Byte → Option (List Block)
  | [] => some []
  | [_] => none
  | x :: y :: rest => (bufferBlocks rest).map (blockOf x y :: ·)

/-- What the host tooling reports of a buffer operation (R170). -/
inductive HostReport where
  /-- every response was OK: the bytes of the responses, in order -/
  | bytes (out : List Byte)
  /-- the buffer's length is not a multiple of `W`: no command was issued -/
  | unalignedBuffer
  /-- a response with a nonzero status stopped the expansion: no partial output -/
  | status (code : BitVec 4)
  deriving DecidableEq, Repr

/-- One command a block, stopping at the first response with a nonzero status (R170). -/
def sendBlocks (command : Block → Instr) :
    List Block → State → Host.Outcome (HostReport × State) Fault Refusal
  | [], s => .next (.bytes [], s)
  | b :: rest, s =>
    match transact (encode (command b)) s with
    | .next t =>
      if t.rspStatus = 0x0#4 then
        match sendBlocks command rest t with
        | .next (.bytes out, u) =>
          .next (.bytes (byte0 (low16 t.rspData) :: byte1 (low16 t.rspData) :: out), u)
        | o => o
      else .next (.status t.rspStatus, t)
    | .fault r => .fault r
    | .refused r => .refused r

/-- A buffer operation: UnalignedBuffer at the host, or one command a block (R170, R207). -/
def bufferOperation (command : Block → Instr) (buffer : List Byte) (s : State) :
    Host.Outcome (HostReport × State) Fault Refusal :=
  match bufferBlocks buffer with
  | none => .next (.unalignedBuffer, s)
  | some blocks => sendBlocks command blocks s

/-- `ENCBUF [x0, …]` (R170). -/
def encbuf : List Byte → State → Host.Outcome (HostReport × State) Fault Refusal :=
  bufferOperation (.enc Config.blockBytes)

/-- `DECBUF [y0, …]` (R171). -/
def decbuf : List Byte → State → Host.Outcome (HostReport × State) Fault Refusal :=
  bufferOperation (.dec Config.blockBytes)

/-- `REDECRYPT [y…]`: RESET, then DECBUF (R172).
An odd buffer is refused before the RESET, so that no command is issued (R207):
R172 leaves open whether the RESET goes first there. [DESIGN CHOICE, log entry 11; safe]
A RESET that ends in an error stops the expansion, as R170 says of ENCBUF. [DEDUCED, log entry 8; safe] -/
def redecrypt (buffer : List Byte) (s : State) : Host.Outcome (HostReport × State) Fault Refusal :=
  match bufferBlocks buffer with
  | none => .next (.unalignedBuffer, s)
  | some _ =>
    match transact (encode .reset) s with
    | .next t => if t.rspStatus = 0x0#4 then decbuf buffer t else .next (.status t.rspStatus, t)
    | .fault r => .fault r
    | .refused r => .refused r

/-- The pins by which a host sends one command and takes its response (R222):
`before` edges with nothing asked, the offer, the command's latency and `stall` edges more, the take. -/
def visit (cw : CommandWord) (before stall : Nat) : List PortIn :=
  List.replicate before PortIn.quiet ++ PortIn.offer cw ::
    (List.replicate (Config.lat cw + stall) PortIn.quiet ++ [PortIn.take])

/-- The pins of a host that sends a sequence of commands, each with its own pauses. -/
def session : List (CommandWord × Nat × Nat) → List PortIn
  | [] => []
  | (cw, before, stall) :: rest => visit cw before stall ++ session rest

end Sys2Proof.Machine
end

