-- ==== Sys2Proof/Machine/Platform.lean ====
section
/-! DEFINITION. Several independent KSC cores on one platform, sharing only the wired constants (spec/60_exceptions.md R220, spec/20_memory.md R50). -/

namespace Sys2Proof.Machine

/-- `n` KSC instances, each with every register of its own (R36, R220). -/
abbrev Platform (n : Nat) := Vector State n

/-- One instance runs `f`; the others keep their state. [DESIGN CHOICE, log entry 10; safe] -/
def Platform.onInstance {n : Nat} (k : Fin n)
    (f : State → Host.Outcome State Fault Refusal) (pl : Platform n) :
    Host.Outcome (Platform n) Fault Refusal :=
  match f pl[k] with
  | .next t => .next (pl.set k t)
  | .fault r => .fault r
  | .refused r => .refused r

/-- One rising edge at instance `k`. -/
def Platform.stepAt {n : Nat} (k : Fin n) (pl : Platform n) :
    Host.Outcome (Platform n) Fault Refusal := pl.onInstance k step

/-- One command to instance `k`. -/
def Platform.transactAt {n : Nat} (k : Fin n) (cw : CommandWord) (pl : Platform n) :
    Host.Outcome (Platform n) Fault Refusal := pl.onInstance k (transact cw)

end Sys2Proof.Machine
end

