-- ==== Sys2Proof/Safety.lean ====
section
/-! DEFINITION. What claims say of a state or a run: the invariants of spec/10_state.md R32, R33 and of the response registers (spec/60_exceptions.md R200), and a run without recorded errors (R25). -/

namespace Sys2Proof.Machine

/-- R32: `STATE ∈ [1, P − 1]`. -/
abbrev State.StateInRange (s : State) : Prop :=
  1 ≤ s.state.toNat ∧ s.state.toNat ≤ Config.P.toNat - 1

/-- R33: `CFG = 0` implies `ADV = 0`, `STATE = G` and `SEED = 0`. -/
abbrev State.UnconfiguredIsFresh (s : State) : Prop :=
  s.cfg = false → s.adv = false ∧ s.state = Config.G ∧ s.seed = 0x0#64

/-- R200: the response registers hold a produced status; an error carries data 0 and its sticky flag is set. -/
abbrev State.ResponseLegal (s : State) : Prop :=
  s.rspStatus.toNat ≤ 5 ∧
    (s.rspStatus ≠ 0x0#4 → s.rspData = 0x0#64 ∧ s.errf.getLsbD (s.rspStatus.toNat - 1) = true)

/-- R66: a command that is BUSY completes within its latency. -/
abbrev State.BusyWithinLatency (s : State) : Prop :=
  s.phase = .busy → s.remaining < Config.lat s.cw

/-- R25: no error is recorded. -/
abbrev State.NoErrorRecorded (s : State) : Prop := s.errf = 0b00000#5

/-- `b^(e+1) mod P` on exact naturals (R100, R101), written without the machine's own method. -/
def exactPower (b e : Word) : Word :=
  BitVec.ofNat 64 (b.toNat ^ (e.toNat + 1) % Config.P.toNat)

/-- The commands that NOT_CONFIGURED refuses while `CFG = 0` (R202). -/
def needsSeed : Instr → Bool
  | .reset | .adv | .keywin | .pubkey | .enc _ _ | .dec _ _ => true
  | .status | .init _ | .reserved _ => false

/-- A command that advances the keystream, in the form that does so: ADV, or ENC and DEC of a 2-byte block (R48). -/
def advances : Instr → Bool
  | .adv => true
  | .enc len _ => blockLengthOk len
  | .dec len _ => blockLengthOk len
  | .status | .init _ | .reset | .keywin | .pubkey | .reserved _ => false

end Sys2Proof.Machine
end

