-- ==== Sys2Proof/Certificates/Slice0/Obligations.lean ====
section
/-! DEFINITION. The statements about the KSC core, from the numbered rules of spec/. States range over all of State unless a hypothesis says otherwise; an error's effect is written out as the flag, the code and data 0 (R200). -/

open Sys2Proof Sys2Proof.Machine

/-! ### Encoding -/

/-- Every well-formed instruction is read back from its word, with every operand (R62, R68, R70, R72). -/
def Obligations.EncodedInstructionDecodesBack : Prop :=
  ∀ i : Instr, i.wellFormed = true → decode (encode i) = i

/-- R69, R70: every word is exactly one row's, selected by `op` alone; operands are the fields as they stand. -/
def Obligations.DecodingIsByOpcodeAlone : Prop :=
  (∀ (len : BitVec 4) (data : Word),
    decode (commandWord 0x0#4 len data) = .status ∧
    decode (commandWord 0x1#4 len data) = .init data ∧
    decode (commandWord 0x2#4 len data) = .reset ∧
    decode (commandWord 0x3#4 len data) = .adv ∧
    decode (commandWord 0x4#4 len data) = .keywin ∧
    decode (commandWord 0x5#4 len data) = .pubkey ∧
    decode (commandWord 0x6#4 len data) = .enc len (data.extractLsb' 0 16) ∧
    decode (commandWord 0x7#4 len data) = .dec len (data.extractLsb' 0 16)) ∧
  (∀ (op len : BitVec 4) (data : Word), op.getLsbD 3 = true →
    decode (commandWord op len data) = .reserved op ∧
    ∀ s, ∃ t, transact (commandWord op len data) s = .next t ∧ t.rspStatus = 0x4#4) ∧
  (∀ cw : CommandWord, (matchingRows cw).map (·.mnemonic) = [(decode cw).mnemonic])

/-- R72: any value of an ignored field gives the same result as 0, and the encoder writes 0 there. -/
def Obligations.IgnoredFieldsNeverMatter : Prop :=
  (∀ (op len : BitVec 4) (data : Word),
    op = 0x0#4 ∨ op = 0x2#4 ∨ op = 0x3#4 ∨ op = 0x4#4 ∨ op = 0x5#4 ∨ op.getLsbD 3 = true →
      (∀ s, transact (commandWord op len data) s = transact (commandWord op 0#4 0#64) s) ∧
      encode (decode (commandWord op len data)) = commandWord op 0#4 0#64) ∧
  (∀ (len : BitVec 4) (data : Word),
    (∀ s, transact (commandWord 0x1#4 len data) s = transact (commandWord 0x1#4 0#4 data) s) ∧
    encode (decode (commandWord 0x1#4 len data)) = commandWord 0x1#4 0#4 data) ∧
  (∀ (op len : BitVec 4) (data : Word), op = 0x6#4 ∨ op = 0x7#4 →
    (∀ s, transact (commandWord op len data) s =
      transact (commandWord op len (data &&& 0xFFFF#64)) s) ∧
    encode (decode (commandWord op len data)) = commandWord op len (data &&& 0xFFFF#64))

/-- R62: `CW = {op, len, data}`, and the fields of any word make it up again. -/
def Obligations.CommandWordConcatenatesItsFields : Prop :=
  (∀ (op len : BitVec 4) (data : Word),
    opField (op ++ len ++ data) = op ∧ lenField (op ++ len ++ data) = len ∧
    dataField (op ++ len ++ data) = data ∧
    (commandWord op len data).toNat = op.toNat * 2 ^ 68 + len.toNat * 2 ^ 64 + data.toNat) ∧
  (∀ cw : CommandWord, commandWord (opField cw) (lenField cw) (dataField cw) = cw) ∧
  encode (.enc 2#4 0x4869#16) = 0x620000000000004869#72

/-- R76, which the spec derives: the worked encodings, and what each decodes to. -/
def Obligations.WorkedEncodings : Prop :=
  assemble (.init 5) = some [0x100000000000000005#72] ∧
  assemble (.enc 0x4869) = some [0x620000000000004869#72] ∧
  assemble (.dec 0x480B) = some [0x72000000000000480B#72] ∧
  assemble (.encLen 3 0x123456) = some [0x630000000000123456#72] ∧
  assemble (.cmd 0xF 0 0) = some [0xF00000000000000000#72] ∧
  assemble .keywin = some [0x400000000000000000#72] ∧
  decode 0x100000000000000005#72 = .init 5#64 ∧
  decode 0x620000000000004869#72 = .enc 2#4 0x4869#16 ∧
  decode 0x72000000000000480B#72 = .dec 2#4 0x480B#16 ∧
  decode 0x630000000000123456#72 = .enc 3#4 0x3456#16 ∧
  decode 0xF00000000000000000#72 = .reserved 0xF#4 ∧
  decode 0x400000000000000000#72 = .keywin

/-- The forms of R74's table: the word of each, and no word for an operand out of range; `ADVN k` of R75. -/
def Obligations.AssemblerFormsAndRanges : Prop :=
  assemble .status = some [commandWord 0x0#4 0#4 0#64] ∧
  assemble .reset = some [commandWord 0x2#4 0#4 0#64] ∧
  assemble .adv = some [commandWord 0x3#4 0#4 0#64] ∧
  assemble .keywin = some [commandWord 0x4#4 0#4 0#64] ∧
  assemble .pubkey = some [commandWord 0x5#4 0#4 0#64] ∧
  (∀ k, assemble (.advn k) = some (List.replicate k (commandWord 0x3#4 0#4 0#64))) ∧
  (∀ s : Word, assemble (.init s.toNat) = some [commandWord 0x1#4 0#4 s]) ∧
  (∀ b : Block, assemble (.enc b.toNat) = some [commandWord 0x6#4 2#4 (b.setWidth 64)] ∧
    assemble (.dec b.toNat) = some [commandWord 0x7#4 2#4 (b.setWidth 64)]) ∧
  (∀ (n : BitVec 4) (d : Word),
    assemble (.encLen n.toNat d.toNat) = some [commandWord 0x6#4 n d] ∧
    assemble (.decLen n.toNat d.toNat) = some [commandWord 0x7#4 n d] ∧
    ∀ o : BitVec 4, assemble (.cmd o.toNat n.toNat d.toNat) = some [commandWord o n d]) ∧
  (∀ s, 2 ^ 64 ≤ s → assemble (.init s) = none) ∧
  (∀ b, 2 ^ 16 ≤ b → assemble (.enc b) = none ∧ assemble (.dec b) = none) ∧
  (∀ n d, 2 ^ 4 ≤ n ∨ 2 ^ 64 ≤ d →
    assemble (.encLen n d) = none ∧ assemble (.decLen n d) = none) ∧
  (∀ o n d, 2 ^ 4 ≤ o ∨ 2 ^ 4 ≤ n ∨ 2 ^ 64 ≤ d → assemble (.cmd o n d) = none)

/-! ### power_mod -/

/-- R100: for `b < P` the machine's `power_mod` is the literal loop, and equally `b^(e+1) mod P`, with bits 63:61 zero. -/
def Obligations.PowerModIsTheLiteralLoop : Prop :=
  ∀ b e : Word, b.toNat < Config.P.toNat →
    (powerMod b e).toNat = powerModLoop b.toNat e.toNat ∧
    (powerMod b e).toNat = b.toNat ^ (e.toNat + 1) % Config.P.toNat ∧
    (powerMod b e).extractLsb' 61 3 = 0#3

/-- For every base, `power_mod(b, e) = b^(e+1) mod P` on exact naturals, the exponent `e + 1` never wrapping (R101, R102, R104, R108).
That it is so for `b ≥ P` too is the model's choice among what R104 allows: log entry 5. -/
def Obligations.PowerModIsTheExactPower : Prop :=
  (∀ b e : Word, powerMod b e = exactPower b e) ∧
  ∀ b : Word, (powerMod b 0xFFFFFFFFFFFFFFFF#64).toNat = b.toNat ^ 2 ^ 64 % Config.P.toNat

/-- The result lies in `[0, P)`, so bits 63:61 are zero (R105).
R100 defines `power_mod` for `b < P` only; that the result is a residue for `b ≥ P` too is the model's choice: log entry 5. -/
def Obligations.PowerModResultIsAResidue : Prop :=
  ∀ b e : Word, (powerMod b e).toNat < Config.P.toNat ∧ (powerMod b e).extractLsb' 61 3 = 0#3

/-- R106: exponent 0 is the identity below `P`, so a seed of 0 makes every advance, by ADV, ENC or DEC, the identity on STATE. -/
def Obligations.PowerModExponentZeroIsIdentity : Prop :=
  (∀ b : Word, b.toNat < Config.P.toNat → powerMod b 0#64 = b) ∧
  ∀ s : State, s.cfg = true → s.seed = 0#64 → s.state.toNat < Config.P.toNat →
    exec .adv s = .next { s with adv := true, rspStatus := 0x0#4, rspData := 0x0#64 } ∧
    ∀ block : Block, ∃ t u, exec (.enc 2#4 block) s = .next t ∧ exec (.dec 2#4 block) s = .next u ∧
      t.rspStatus = 0x0#4 ∧ t.state = s.state ∧ u.rspStatus = 0x0#4 ∧ u.state = s.state

/-- R107, which the spec derives: nonzero residues stay nonzero; bases 1 and 0 are fixed. -/
def Obligations.NonzeroResiduesStayNonzero : Prop :=
  (∀ b e : Word, 1 ≤ b.toNat ∧ b.toNat ≤ Config.P.toNat - 1 →
    1 ≤ (powerMod b e).toNat ∧ (powerMod b e).toNat ≤ Config.P.toNat - 1) ∧
  (∀ e : Word, powerMod 1#64 e = 1#64) ∧
  ∀ e : Word, powerMod 0#64 e = 0#64

/-- R109, which the spec derives: exponents reduce modulo `P − 1`, with its three consequences. -/
def Obligations.ExponentsReduceModuloPMinusOne : Prop :=
  ∀ b : Word, 1 ≤ b.toNat ∧ b.toNat ≤ Config.P.toNat - 1 →
    b.toNat ^ (Config.P.toNat - 1) % Config.P.toNat = 1 ∧
    (∀ e e' : Word,
      (e.toNat + 1) % (Config.P.toNat - 1) = (e'.toNat + 1) % (Config.P.toNat - 1) →
      powerMod b e = powerMod b e') ∧
    powerMod b (Config.P - 2#64) = 1#64 ∧
    powerMod b (Config.P - 1#64) = b ∧
    powerMod b Config.P = powerMod b 1#64

/-! ### The keystream state machine's commands -/

/-- R120, R122, R203: INIT loads any seed while `CFG = 0`; after it and any commands that do not advance, KEYWIN ends in NO_ADVANCE_YET;
while `CFG = 1` INIT is refused. -/
def Obligations.InitConstructs : Prop :=
  (∀ (len : BitVec 4) (data : Word), decode (commandWord 0x1#4 len data) = .init data) ∧
  ∀ (seed : Word) (s : State),
    (s.cfg = false → ∃ t,
      t = { s with
        seed := seed, state := 0x7FFFFFFF#64, cfg := true, adv := false,
        rspStatus := 0x0#4, rspData := 0x0#64 } ∧
      exec (.init seed) s = .next t ∧
      ∀ words : List CommandWord, (∀ cw ∈ words, advances (decode cw) = false) →
        ∃ rs u, runCommands words t = .next (rs, u) ∧
          exec .keywin u = .next { u with
            errf := u.errf ||| 0b10000#5, rspStatus := 0x5#4, rspData := 0x0#64 }) ∧
    (s.cfg = true → exec (.init seed) s =
      .next { s with errf := s.errf ||| 0b00100#5, rspStatus := 0x3#4, rspData := 0x0#64 })

/-- R125, R126: RESET writes G to STATE and nothing else; RESET twice is RESET once;
a KEYWIN after it returns 0xFFFF if there was an advance, and fails if there was none. -/
def Obligations.ResetRestoresTheGenerator : Prop :=
  (∀ (len : BitVec 4) (data : Word), decode (commandWord 0x2#4 len data) = .reset) ∧
  ∀ s : State,
    (s.cfg = true → ∃ t,
      t = { s with state := 0x7FFFFFFF#64, rspStatus := 0x0#4, rspData := 0x0#64 } ∧
      exec .reset s = .next t ∧ exec .reset t = .next t ∧
      (s.adv = true → exec .keywin t = .next { t with rspData := 0xFFFF#64 }) ∧
      (s.adv = false → exec .keywin t =
        .next { t with errf := s.errf ||| 0b10000#5, rspStatus := 0x5#4 }) ∧
      (s.state = 0x7FFFFFFF#64 → t.registers = s.registers)) ∧
    (s.cfg = false → exec .reset s =
      .next { s with errf := s.errf ||| 0b00010#5, rspStatus := 0x2#4, rspData := 0x0#64 })

/-- R130, R131: ADV writes `STATE^(SEED+1) mod P` and sets ADV once `CFG = 1`, and is refused before;
with STATE in its range, seeds 0 and P−1 keep it, seed P−2 sends it to 1, and 1 stays 1. -/
def Obligations.AdvAppliesTheOneWayStep : Prop :=
  (∀ (len : BitVec 4) (data : Word), decode (commandWord 0x3#4 len data) = .adv) ∧
  ∀ s : State,
    (s.cfg = true → ∃ t,
      t = { s with
        state := exactPower s.state s.seed, adv := true, rspStatus := 0x0#4, rspData := 0x0#64 } ∧
      exec .adv s = .next t ∧
      (s.StateInRange →
        (s.seed = 0#64 ∨ s.seed = Config.P - 1#64 → t.state = s.state) ∧
        (s.seed = Config.P - 2#64 → t.state = 1#64) ∧
        (s.state = 1#64 → t.state = 1#64))) ∧
    (s.cfg = false → exec .adv s =
      .next { s with errf := s.errf ||| 0b00010#5, rspStatus := 0x2#4, rspData := 0x0#64 })

/-- R135, R205: KEYWIN returns `zext_64(STATE[15:0])`, byte k0 above byte k1, and changes nothing else; it is refused before INIT and before an advance. -/
def Obligations.KeywinReturnsTheWindow : Prop :=
  (∀ (len : BitVec 4) (data : Word), decode (commandWord 0x4#4 len data) = .keywin) ∧
  ∀ s : State,
    (s.cfg = true → s.adv = true → ∃ t,
      t = { s with rspStatus := 0x0#4, rspData := (s.state.extractLsb' 0 16).setWidth 64 } ∧
      exec .keywin s = .next t ∧ exec .keywin t = .next t ∧
      t.rspData.extractLsb' 8 8 = s.state.extractLsb' 8 8 ∧
      t.rspData.extractLsb' 0 8 = s.state.extractLsb' 0 8 ∧
      (t.rspData = 0x0#64 ↔ s.state.extractLsb' 0 16 = 0x0#16) ∧
      (s.state = 0x7FFFFFFF#64 → t.rspData = 0xFFFF#64)) ∧
    (s.cfg = true → s.adv = false → exec .keywin s =
      .next { s with errf := s.errf ||| 0b10000#5, rspStatus := 0x5#4, rspData := 0x0#64 }) ∧
    (s.cfg = false → exec .keywin s =
      .next { s with errf := s.errf ||| 0b00010#5, rspStatus := 0x2#4, rspData := 0x0#64 })

/-- PUBKEY returns `G^(SEED+1) mod P`; it needs CFG and no advance (R140).
That this is the STATE which the first ADV after INIT leaves is R140's sentence that the spec derives, from R120 and R130. -/
def Obligations.PubkeyReturnsTheSeedsPower : Prop :=
  (∀ (len : BitVec 4) (data : Word), decode (commandWord 0x5#4 len data) = .pubkey) ∧
  ∀ s : State,
    (s.cfg = true → ∃ t,
      t = { s with rspStatus := 0x0#4, rspData := exactPower 0x7FFFFFFF#64 s.seed } ∧
      exec .pubkey s = .next t ∧
      t.rspData.extractLsb' 61 3 = 0#3 ∧
      (s.seed = 0#64 → t.rspData = 0x7FFFFFFF#64) ∧
      (s.seed = Config.P - 2#64 → t.rspData = 1#64) ∧
      (s.state = 0x7FFFFFFF#64 → ∃ u, exec .adv s = .next u ∧ u.state = t.rspData)) ∧
    (s.cfg = false → exec .pubkey s =
      .next { s with errf := s.errf ||| 0b00010#5, rspStatus := 0x2#4, rspData := 0x0#64 })

/-! ### The XOR cipher block's commands -/

/-- R160, R163: ENC of a 2-byte block advances, then XORs with the new window; before INIT, and then for any other length, it is refused with no advance. -/
def Obligations.EncAdvancesThenXors : Prop :=
  (∀ (len : BitVec 4) (data : Word),
    decode (commandWord 0x6#4 len data) = .enc len (data.extractLsb' 0 16)) ∧
  ∀ (len : BitVec 4) (block : Block) (s : State),
    (s.cfg = true → len = 2#4 → ∃ t,
      t = { s with
        state := exactPower s.state s.seed, adv := true, rspStatus := 0x0#4,
        rspData := (block ^^^ (exactPower s.state s.seed).extractLsb' 0 16).setWidth 64 } ∧
      exec (.enc len block) s = .next t ∧
      (block = 0x0#16 → t.rspData = (t.state.extractLsb' 0 16).setWidth 64) ∧
      (block = t.state.extractLsb' 0 16 → t.rspData = 0x0#64) ∧
      (s.seed = 0#64 → s.state = 0x7FFFFFFF#64 →
        t.rspData = (~~~block).setWidth 64 ∧ t.state = 0x7FFFFFFF#64)) ∧
    (s.cfg = true → len ≠ 2#4 → exec (.enc len block) s =
      .next { s with errf := s.errf ||| 0b00001#5, rspStatus := 0x1#4, rspData := 0x0#64 }) ∧
    (s.cfg = false → exec (.enc len block) s =
      .next { s with errf := s.errf ||| 0b00010#5, rspStatus := 0x2#4, rspData := 0x0#64 })

/-- R165: DEC has its own opcode and exactly ENC's checks, effect and response. -/
def Obligations.DecPerformsTheEncOperation : Prop :=
  (∀ (len : BitVec 4) (data : Word),
    decode (commandWord 0x7#4 len data) = .dec len (data.extractLsb' 0 16)) ∧
  ∀ (len : BitVec 4) (block : Block) (s : State),
    exec (.dec len block) s = exec (.enc len block) s ∧
    (s.cfg = true → len = 2#4 → exec (.dec len block) s = .next { s with
      state := exactPower s.state s.seed, adv := true, rspStatus := 0x0#4,
      rspData := (block ^^^ (exactPower s.state s.seed).extractLsb' 0 16).setWidth 64 }) ∧
    (s.cfg = true → len ≠ 2#4 → exec (.dec len block) s =
      .next { s with errf := s.errf ||| 0b00001#5, rspStatus := 0x1#4, rspData := 0x0#64 }) ∧
    (s.cfg = false → exec (.dec len block) s =
      .next { s with errf := s.errf ||| 0b00010#5, rspStatus := 0x2#4, rspData := 0x0#64 })

/-- R162, which the spec derives: lane by lane, `c_i = b_i xor k_i`, with the block's byte 0 and the window's k0 both in bits 15:8, and `rsp_data[63:16] = 0`. -/
def Obligations.CipherLanesNeverMix : Prop :=
  ∀ (b0 b1 : Byte) (s : State), s.cfg = true →
    ∃ t, exec (.enc 2#4 (b0 ++ b1)) s = .next t ∧
      t.rspData.extractLsb' 8 8 = b0 ^^^ t.state.extractLsb' 8 8 ∧
      t.rspData.extractLsb' 0 8 = b1 ^^^ t.state.extractLsb' 0 8 ∧
      t.rspData.extractLsb' 16 48 = 0#48

/-! ### Control commands and errors -/

/-- R190, R30: STATUS always succeeds and returns CFG in bit 0, ADV in bit 1, ERRF in bits 12:8 and 0 elsewhere;
before INIT only STATUS and INIT succeed. -/
def Obligations.StatusWordBitByBit : Prop :=
  (∀ (len : BitVec 4) (data : Word), decode (commandWord 0x0#4 len data) = .status) ∧
  decode 0x0#72 = .status ∧
  (∀ s : State, ∃ w : Word,
    exec .status s = .next { s with rspStatus := 0x0#4, rspData := w } ∧
    ∀ i, w.getLsbD i =
      (if i = 0 then s.cfg else if i = 1 then s.adv
       else if 8 ≤ i ∧ i ≤ 12 then s.errf.getLsbD (i - 8) else false)) ∧
  exec .status State.reset =
    .next { State.reset with rspStatus := 0x0#4, rspData := 0x0#64 } ∧
  ∀ (i : Instr) (s : State), s.cfg = false → ∃ t, exec i s = .next t ∧
    (t.rspStatus = 0x0#4 ↔ i = .status ∨ ∃ seed, i = .init seed)

/-- R193, R204: opcodes 0x8 to 0xF end in ILLEGAL_COMMAND for every `len`, `data` and state; only `ERRF[3]` and the response change. -/
def Obligations.ReservedOpcodesAreIllegal : Prop :=
  ∀ (op len : BitVec 4) (data : Word) (s : State), 0x8 ≤ op.toNat →
    decode (commandWord op len data) = .reserved op ∧
    exec (.reserved op) s =
      .next { s with errf := s.errf ||| 0b01000#5, rspStatus := 0x4#4, rspData := 0x0#64 }

/-- R202: while `CFG = 0`, each of RESET, ADV, KEYWIN, PUBKEY, ENC and DEC, in every form, ends in NOT_CONFIGURED. -/
def Obligations.UnconfiguredCommandsAreRefused : Prop :=
  ∀ (i : Instr) (s : State), needsSeed i = true → s.cfg = false →
    exec i s = .next { s with errf := s.errf ||| 0b00010#5, rspStatus := 0x2#4, rspData := 0x0#64 }

/-- R206: every command word in every state answers with exactly one status, the first check that applies, and sets at most that status's flag. -/
def Obligations.OneStatusByPriority : Prop :=
  ∀ (op len : BitVec 4) (data : Word) (s : State),
    ∃ t, transact (commandWord op len data) s = .next t ∧
      t.rspStatus =
        (if 0x8 ≤ op.toNat then 0x4#4
         else if op ≠ 0x0#4 ∧ op ≠ 0x1#4 ∧ s.cfg = false then 0x2#4
         else if op = 0x1#4 ∧ s.cfg = true then 0x3#4
         else if (op = 0x6#4 ∨ op = 0x7#4) ∧ len ≠ 2#4 then 0x1#4
         else if op = 0x4#4 ∧ s.adv = false then 0x5#4
         else 0x0#4) ∧
      (t.rspStatus = 0x0#4 → t.errf = s.errf) ∧
      (t.rspStatus ≠ 0x0#4 → t.errf = s.errf ||| 1#5 <<< (t.rspStatus.toNat - 1))

/-- R208: a command that ends in an error changes no register but one ERRF bit and the response, and leaves the port as it was. -/
def Obligations.ErrorsWriteOnlyTheirFlag : Prop :=
  ∀ (i : Instr) (s : State), ∃ t, exec i s = .next t ∧
    (t.rspStatus ≠ 0x0#4 →
      1 ≤ t.rspStatus.toNat ∧ t.rspStatus.toNat ≤ 5 ∧
      t = { s with
        errf := s.errf ||| 1#5 <<< (t.rspStatus.toNat - 1)
        rspStatus := t.rspStatus, rspData := 0x0#64 })

/-- R209, which the spec derives: a command that ended in an error ends in the same error again, and the retry changes nothing more. -/
def Obligations.RetryReproducesTheError : Prop :=
  ∀ (i : Instr) (s t : State), exec i s = .next t → t.rspStatus ≠ 0x0#4 → exec i t = .next t

/-- R25: bit `k − 1` is set when a command ends with error `k`, no command and no edge but hardware reset clears a bit, and hardware reset clears all. -/
def Obligations.ErrfIsSticky : Prop :=
  (∀ (i : Instr) (s t : State), exec i s = .next t →
    s.errf &&& t.errf = s.errf ∧
    (t.rspStatus ≠ 0x0#4 → t.errf.getLsbD (t.rspStatus.toNat - 1) = true)) ∧
  (∀ s t : State, step s = .next t → s.pins.rstN = true → s.errf &&& t.errf = s.errf) ∧
  ∀ s : State, s.pins.rstN = false → ∃ t, step s = .next t ∧ t.errf = 0b00000#5

/-! ### Who writes what -/

/-- R121, which the spec derives: INIT is the only command that writes SEED; once `CFG = 1`, no edge but hardware reset changes SEED; after hardware reset INIT loads a new one. -/
def Obligations.OnlyInitWritesSeed : Prop :=
  (∀ (i : Instr) (s t : State), exec i s = .next t → t.seed ≠ s.seed →
    s.cfg = false ∧ i = .init t.seed) ∧
  (∀ s t : State, step s = .next t → s.cfg = true → s.pins.rstN = true →
    t.seed = s.seed ∧ t.cfg = true) ∧
  ∀ (s : State) (seed : Word), s.pins.rstN = false →
    ∃ t u, step s = .next t ∧ exec (.init seed) t = .next u ∧ u.seed = seed ∧ u.rspStatus = 0x0#4

/-- The writers of STATE (R21): at every edge STATE keeps its value, or hardware reset writes G,
or the completing command does: INIT and RESET write G; ADV, ENC and DEC write `STATE^(SEED+1) mod P`. -/
def Obligations.WritersOfState : Prop :=
  ∀ s t : State, step s = .next t → t.state ≠ s.state →
    (s.pins.rstN = false ∧ t.state = 0x7FFFFFFF#64) ∨
    (s.pins.rstN = true ∧ s.phase = .busy ∧ s.remaining = 0 ∧
      (t.state = 0x7FFFFFFF#64 ∧ (decode s.cw = .reset ∨ decode s.cw = .init t.seed) ∨
       t.state = exactPower s.state s.seed ∧ s.cfg = true ∧ advances (decode s.cw) = true))

/-- The writers of CFG and ADV (R23, R24): CFG becomes 1 by INIT and 0 by hardware reset only; a command leaves ADV
as INIT's 0, as an advance's 1, or alone, RESET included. -/
def Obligations.WritersOfCfgAndAdv : Prop :=
  (∀ s t : State, step s = .next t → t.cfg ≠ s.cfg →
    (s.pins.rstN = false ∧ t.cfg = false) ∨
    (t.cfg = true ∧ s.phase = .busy ∧ s.remaining = 0 ∧ decode s.cw = .init t.seed)) ∧
  (∀ (i : Instr) (s : State), ∃ t, exec i s = .next t ∧
    t.adv =
      (if s.cfg = true then (if advances i = true then true else s.adv)
       else if i.mnemonic = "INIT" then false else s.adv))

/-! ### Clock, handshake and hardware reset -/

/-- R240, R241: an edge with `rst_n = 0`, in any phase, leaves every register at its reset value and no response to take;
`cmd_ready` and `rsp_valid` are 0 while `rst_n = 0`, and from the next edge with `rst_n = 1` a command is accepted. -/
def Obligations.HardwareResetEdge : Prop :=
  ∀ s : State, s.pins.rstN = false →
    cmdReady s.pins s = false ∧ rspValid s.pins s = false ∧
    ∃ t, step s = .next t ∧
      t.state = 0x7FFFFFFF#64 ∧ t.seed = 0x0#64 ∧ t.cfg = false ∧ t.adv = false ∧
      t.errf = 0b00000#5 ∧ t.phase = .idle ∧ t.rspStatus = 0x0#4 ∧ t.rspData = 0x0#64 ∧
      ∀ p : PortIn, rspValid p t = false ∧
        (p.rstN = true → cmdReady p t = true ∧ (p.cmdValid = true → accepted p t = true))

/-- R31: the reset state holds the values of the table (CW, `remaining` and the queue of pins, which R31 does not list, are left out: log entries 1, 2). -/
def Obligations.ResetStateHoldsTheSpecValues : Prop :=
  State.reset.state = 0x7FFFFFFF#64 ∧ State.reset.seed = 0x0#64 ∧ State.reset.cfg = false ∧
  State.reset.adv = false ∧ State.reset.errf = 0b00000#5 ∧ State.reset.phase = .idle ∧
  State.reset.rspStatus = 0x0#4 ∧ State.reset.rspData = 0x0#64 ∧
  Config.P.toNat = 2 ^ 61 - 1 ∧ Config.G.toNat = 2 ^ 31 - 1

/-- R65: the process at an edge with `rst_n = 1`, phase by phase; the pins move on by one edge. -/
def Obligations.HandshakeFollowsTheProcess : Prop :=
  ∀ s : State, s.pins.rstN = true →
    (s.phase = .idle → s.pins.cmdValid = true → step s = .next { s with
      cw := commandWord s.pins.cmdOp s.pins.cmdLen s.pins.cmdData, phase := .busy
      remaining := Config.lat (commandWord s.pins.cmdOp s.pins.cmdLen s.pins.cmdData) - 1
      host := s.host.tail }) ∧
    (s.phase = .idle → s.pins.cmdValid = false → step s = .next { s with host := s.host.tail }) ∧
    (s.phase = .busy → 0 < s.remaining →
      step s = .next { s with remaining := s.remaining - 1, host := s.host.tail }) ∧
    (s.phase = .busy → s.remaining = 0 → ∃ t, transact s.cw s = .next t ∧
      step s = .next { t with phase := .resp, host := s.host.tail }) ∧
    (s.phase = .resp → s.pins.rspReady = true →
      step s = .next { s with phase := .idle, host := s.host.tail }) ∧
    (s.phase = .resp → s.pins.rspReady = false → step s = .next { s with host := s.host.tail }) ∧
    (∀ p : PortIn, accepted s.pins s = false → accepted p s = false →
      p.rstN = true → p.rspReady = s.pins.rspReady →
      step { s with host := p :: s.host.tail } = step s)

/-- A step runs the decoded command (R65, R195): where a captured word's latency has elapsed, the edge is `exec` of the instruction
the word decodes to; around it the step sets PHASE to RESP and moves the pins on. -/
def Obligations.StepRunsTheDecodedCommand : Prop :=
  ∀ (s : State) (i : Instr), i.wellFormed = true → decode s.cw = i →
    s.pins.rstN = true → s.phase = .busy → s.remaining = 0 →
    ∃ t, exec i s = .next t ∧ step s = .next { t with phase := .resp, host := s.host.tail }

/-- Every edge answers with a next state: the machine neither faults nor refuses nor sticks (R195, R66). -/
def Obligations.EveryEdgeAnswers : Prop :=
  ∀ (n : Nat) (s : State), ∃ tr t, runEdges n s = .next (tr, t)

/-- While RESP and not taken, the response and every register hold, for any number of edges (R66, R67). -/
def Obligations.ResponseHeldUntilTaken : Prop :=
  ∀ (n : Nat) (s : State), s.phase = .resp →
    (∀ p ∈ s.host.take n, p.rstN = true ∧ p.rspReady = false) →
    runEdges n s = .next (⟨[], []⟩, { s with host := s.host.drop n })

/-- R66: whatever the pins do short of a reset, an accepted command is BUSY for every edge before the `LAT`-th after its acceptance,
and at that edge its response is presented and its effect is `Execute`'s. -/
def Obligations.CommandAnswersAfterItsLatency : Prop :=
  ∀ s : State, accepted s.pins s = true →
    (∀ p ∈ s.host.take (Config.lat s.pins.commandWord + 1), p.rstN = true) →
    1 ≤ Config.lat s.pins.commandWord ∧
    (∀ n, n < Config.lat s.pins.commandWord →
      ∃ tr t, runEdges (n + 1) s = .next (tr, t) ∧ t.phase = .busy ∧
        t.registers = s.registers) ∧
    ∃ tr t u, runEdges (Config.lat s.pins.commandWord + 1) s = .next (tr, t) ∧
      transact s.pins.commandWord s = .next u ∧
      t.phase = .resp ∧ t.response = u.response ∧ t.registers = u.registers

/-- Any run of edges without a reset, from IDLE to IDLE and whatever the host's pins do, is the run of the commands it accepted:
the same responses in the same order, and the same registers (R44, R49, R255). -/
def Obligations.EdgeRunsAreCommandRuns : Prop :=
  ∀ (n : Nat) (s : State) (tr : Trace) (t : State),
    s.phase = .idle → (∀ p ∈ s.host, p.rstN = true) →
    runEdges n s = .next (tr, t) → t.phase = .idle →
    ∃ u, runCommands tr.words s = .next (tr.responses, u) ∧ t.registers = u.registers

/-- A host that offers its commands one after another, pausing as it likes, gets every response, and the run is over (R222, R255). -/
def Obligations.SessionDeliversEveryResponse : Prop :=
  ∀ (visits : List (CommandWord × Nat × Nat)) (rest : List PortIn) (s : State),
    s.phase = .idle → s.host = session visits ++ rest →
    ∃ tr t u, runEdges (session visits).length s = .next (tr, t) ∧
      tr.words = visits.map (·.1) ∧
      runCommands (visits.map (·.1)) s = .next (tr.responses, u) ∧
      t.registers = u.registers ∧ t.phase = .idle ∧ t.host = rest

/-- R61: `cmd_ready` and `rsp_valid` are functions of PHASE and `rst_n` only, and both are 0 while `rst_n = 0`. -/
def Obligations.ReadyAndValidReadPhaseAndResetOnly : Prop :=
  (∀ (p q : PortIn) (s t : State), p.rstN = q.rstN → s.phase = t.phase →
    (outputs p s).cmdReady = (outputs q t).cmdReady ∧
    (outputs p s).rspValid = (outputs q t).rspValid) ∧
  ∀ (p : PortIn) (s : State),
    (p.rstN = false → (outputs p s).cmdReady = false ∧ (outputs p s).rspValid = false) ∧
    (p.rstN = true → ((outputs p s).cmdReady = true ↔ s.phase = .idle) ∧
      ((outputs p s).rspValid = true ↔ s.phase = .resp))

/-! ### Invariants -/

/-- R32, which the spec derives: hardware reset puts STATE in `[1, P − 1]`, every edge keeps it there, and there bits 63:61 are zero and STATE is not. -/
def Obligations.StateStaysInRange : Prop :=
  (∀ s : State, s.pins.rstN = false → ∃ t, step s = .next t ∧ t.StateInRange) ∧
  (∀ s t : State, s.StateInRange → step s = .next t → t.StateInRange) ∧
  ∀ s : State, s.StateInRange → s.state.extractLsb' 61 3 = 0b000#3 ∧ s.state ≠ 0#64

/-- R33, which the spec derives: hardware reset makes it so, and every edge keeps it, that `CFG = 0` implies `ADV = 0`, `STATE = G` and `SEED = 0`. -/
def Obligations.UnconfiguredCoreStaysFresh : Prop :=
  (∀ s : State, s.pins.rstN = false → ∃ t, step s = .next t ∧ t.UnconfiguredIsFresh) ∧
  ∀ s t : State, s.UnconfiguredIsFresh → step s = .next t → t.UnconfiguredIsFresh

/-- Every edge keeps the response registers legal: a produced status, and data 0 and a set flag under an error (R200, R64). -/
def Obligations.ResponseRegistersStayLegal : Prop :=
  ∀ s t : State, s.ResponseLegal → step s = .next t → t.ResponseLegal

/-- Every edge keeps a BUSY command within its latency (R65, R66). -/
def Obligations.BusyStaysWithinLatency : Prop :=
  ∀ s t : State, s.BusyWithinLatency → step s = .next t → t.BusyWithinLatency

/-- The four invariants hold at reset. -/
def Obligations.InvariantsHoldAtReset : Prop :=
  State.reset.StateInRange ∧ State.reset.UnconfiguredIsFresh ∧
  State.reset.ResponseLegal ∧ State.reset.BusyWithinLatency

/-! ### Round trips and sequences -/

/-- R166, which the spec derives: from the same STATE and SEED, DEC of what ENC answered answers the block. -/
def Obligations.DecInvertsEnc : Prop :=
  ∀ (block : Block) (s s' : State), s.cfg = true → s'.cfg = true →
    s'.state = s.state → s'.seed = s.seed →
    ∃ t u, exec (.enc 2#4 block) s = .next t ∧
      exec (.dec 2#4 (t.rspData.extractLsb' 0 16)) s' = .next u ∧
      u.rspStatus = 0x0#4 ∧ u.rspData = block.setWidth 64

/-- R167, which the spec derives: blocks encrypted from `S_0` come back from RESET and the same number of DEC commands, with nothing in between. -/
def Obligations.SequenceRoundTrip : Prop :=
  ∀ (blocks : List Block) (s : State), s.cfg = true → s.state = Config.G →
    ∃ rs t u,
      runCommands (blocks.map (fun x => encode (.enc 2#4 x))) s = .next (rs, t) ∧
      rs.length = blocks.length ∧
      runCommands (encode .reset :: rs.map (fun r => encode (.dec 2#4 (low16 r.data)))) t =
        .next (⟨0x0#4, 0x0#64⟩ :: blocks.map (fun x => ⟨0x0#4, x.setWidth 64⟩), u)

/-- R172, which the spec derives (with R170, R171): REDECRYPT of what ENCBUF returned, started at `S_0`, returns the buffer. -/
def Obligations.RedecryptRecoversTheBuffer : Prop :=
  ∀ (buffer : List Byte) (s : State), s.cfg = true → s.state = Config.G →
    buffer.length % 2 = 0 →
    ∃ out t u, encbuf buffer s = .next (.bytes out, t) ∧ out.length = buffer.length ∧
      redecrypt out t = .next (.bytes buffer, u)

/-- Buffers at the host (R170, R171, R173, R207): an odd one is refused with no command issued, an empty one yields the empty buffer,
and the first error stops the expansion with no output.
That REDECRYPT of an odd buffer does not issue its RESET either is the model's choice: log entry 11;
that it stops on a failed RESET: log entry 8. -/
def Obligations.OddBuffersIssueNoCommand : Prop :=
  ∀ (buffer : List Byte) (s : State),
    (buffer.length % 2 = 1 →
      encbuf buffer s = .next (.unalignedBuffer, s) ∧
      decbuf buffer s = .next (.unalignedBuffer, s) ∧
      redecrypt buffer s = .next (.unalignedBuffer, s)) ∧
    (buffer = [] → encbuf buffer s = .next (.bytes [], s) ∧
      decbuf buffer s = .next (.bytes [], s)) ∧
    (buffer.length % 2 = 0 → buffer ≠ [] → s.cfg = false → ∃ t,
      t = { s with errf := s.errf ||| 0b00010#5, rspStatus := 0x2#4, rspData := 0x0#64 } ∧
      encbuf buffer s = .next (.status 0x2#4, t) ∧ decbuf buffer s = .next (.status 0x2#4, t) ∧
      redecrypt buffer s = .next (.status 0x2#4, t))

/-- R145, which the spec derives: in a configured core at `S_k`, any commands without RESET leave STATE at `S_(k+n)`, where `n` counts the advancing ones among them;
RESET returns to `S_0`; the window after them is `K_(k+n)`. -/
def Obligations.KeystreamCountsAdvances : Prop :=
  (∀ (commands : List Instr) (k : Nat) (s : State),
    (∀ i ∈ commands, i.wellFormed = true ∧ i ≠ .reset) →
    s.cfg = true → s.state = keystream s.seed k →
    ∃ rs t, runCommands (commands.map encode) s = .next (rs, t) ∧
      t.seed = s.seed ∧ t.state = keystream s.seed (k + commands.countP advances) ∧
      keyWindow t = keystreamWindow s.seed (k + commands.countP advances)) ∧
  ∀ s : State, s.cfg = true →
    ∃ t, exec .reset s = .next t ∧ t.seed = s.seed ∧ t.state = keystream s.seed 0

/-- R146, which the spec derives: `S_k = G^((s+1)^k) mod P`. -/
def Obligations.KeystreamClosedForm : Prop :=
  ∀ (seed : Word) (k : Nat),
    (keystream seed k).toNat = Config.G.toNat ^ (seed.toNat + 1) ^ k % Config.P.toNat

/-- R148, which the spec derives: the seeds with degenerate keystreams. -/
def Obligations.DegenerateSeeds : Prop :=
  (∀ seed : Word, seed.toNat % (Config.P.toNat - 1) = 0 →
    ∀ i, keystream seed i = Config.G ∧ keystreamWindow seed i = 0xFFFF#16) ∧
  (∀ seed : Word, seed.toNat % (Config.P.toNat - 1) = Config.P.toNat - 2 →
    ∀ i, keystream seed (i + 1) = 1#64 ∧ keystreamWindow seed (i + 1) = 0x0001#16) ∧
  ∀ seed seed' : Word, seed'.toNat = seed.toNat + (Config.P.toNat - 1) →
    ∀ i, keystream seed' i = keystream seed i

/-! ### What stays inside -/

/-- No response but PUBKEY's tells more of STATE and SEED than the key windows, now and after an advance (R20, R215);
and PUBKEY's tells nothing of STATE (R140). -/
def Obligations.KeyMaterialStaysInside : Prop :=
  ∀ (i : Instr) (s s' : State), s'.cfg = s.cfg → s'.adv = s.adv → s'.errf = s.errf →
    (i ≠ .pubkey → keyWindow s' = keyWindow s →
      (exactPower s'.state s'.seed).extractLsb' 0 16 = (exactPower s.state s.seed).extractLsb' 0 16 →
      ∃ t t', exec i s = .next t ∧ exec i s' = .next t' ∧ t'.response = t.response) ∧
    (i = .pubkey → s'.seed = s.seed →
      ∃ t t', exec i s = .next t ∧ exec i s' = .next t' ∧ t'.response = t.response)

/-- While `CFG = 0`, no command's response or effect depends on SEED: another SEED gives the same, up to SEED itself where it is kept (R31). -/
def Obligations.SeedIsUnobservableBeforeInit : Prop :=
  ∀ (i : Instr) (s : State) (x : Word), s.cfg = false →
    ∃ t, exec i s = .next t ∧
      (exec i { s with seed := x } = .next { t with seed := x } ∧ t.cfg = false ∨
       exec i { s with seed := x } = .next t ∧ t.cfg = true)

/-- CW and `remaining` are dead outside BUSY, so their values at reset, which the spec does not give (log entry 1), cannot be seen:
from two states that differ only in them, every run shows the host the same and ends in the same registers and phase. -/
def Obligations.CapturedWordIsDeadUnlessBusy : Prop :=
  ∀ (n : Nat) (s : State) (cw : CommandWord) (left : Nat), s.phase ≠ .busy →
    ∃ tr t t', runEdges n s = .next (tr, t) ∧
      runEdges n { s with cw := cw, remaining := left } = .next (tr, t') ∧
      t'.registers = t.registers ∧ t'.phase = t.phase ∧ t'.response = t.response

/-- A command, or an edge, at one instance changes no other instance and has there the effect it has alone (R220);
commands to two instances commute (R50). That one instance moves at a time is the model's choice: log entry 10. -/
def Obligations.InstancesAreIsolated : Prop :=
  (∀ (n : Nat) (k : Fin n) (pl : Platform n) (cw : CommandWord),
    (∃ pl', pl.transactAt k cw = .next pl' ∧ transact cw pl[k] = .next pl'[k] ∧
      ∀ j : Fin n, j ≠ k → pl'[j] = pl[j]) ∧
    (∃ pl', pl.stepAt k = .next pl' ∧ step pl[k] = .next pl'[k] ∧
      ∀ j : Fin n, j ≠ k → pl'[j] = pl[j])) ∧
  ∀ (n : Nat) (j k : Fin n) (pl : Platform n) (cw cw' : CommandWord), j ≠ k →
    ∃ a b c, pl.transactAt j cw = .next a ∧ a.transactAt k cw' = .next c ∧
      pl.transactAt k cw' = .next b ∧ b.transactAt j cw = .next c

/-- FALSE of the core, and to be refuted (R250, program P6): an ADV between RESET and DEC does not disturb the decryption. -/
def Obligations.StrayAdvanceStillDecrypts : Prop :=
  ∀ (block : Block) (s : State), s.cfg = true → s.state = Config.G →
    ∃ t u v w, exec (.enc 2#4 block) s = .next t ∧ exec .reset t = .next u ∧
      exec .adv u = .next v ∧ exec (.dec 2#4 (low16 t.rspData)) v = .next w ∧
      w.rspData = block.setWidth 64

/-- The sticky record as a premise (R25): a run that ends with no error recorded had every response OK. -/
def Obligations.CleanErrfMeansEveryResponseOk : Prop :=
  ∀ (words : List CommandWord) (s : State) (rs : List Response) (t : State),
    runCommands words s = .next (rs, t) → t.NoErrorRecorded → ∀ r ∈ rs, r.status = 0x0#4

/-- Atomicity of each command, the only synchronisation the core offers (R44, R51):
an edge without reset leaves the registers and the response as they are or applies the whole of `Execute` for the one command outstanding;
a command is accepted only when none is outstanding, and is outstanding from then until its response is consumed;
a command's response and effect depend on the registers of R20 alone, so no reservation, lock or other hidden state carries over;
and there are no commands but the nine of the opcode table. Exclusive use of an instance by one session is the host's duty (R252). -/
def Obligations.AtomicityIsTheOnlySynchronisation : Prop :=
  (∀ s t : State, step s = .next t → s.pins.rstN = true →
    (t.registers = s.registers ∧ t.response = s.response) ∨
    (s.phase = .busy ∧ s.remaining = 0 ∧ ∃ u, transact s.cw s = .next u ∧
      t.phase = .resp ∧ t.registers = u.registers ∧ t.response = u.response)) ∧
  (∀ s t : State, step s = .next t → s.pins.rstN = true →
    (accepted s.pins s = true ↔ s.phase = .idle ∧ t.phase ≠ .idle) ∧
    (consumed s.pins s = true ↔ s.phase ≠ .idle ∧ t.phase = .idle)) ∧
  (∀ (cw : CommandWord) (s s' : State), s'.registers = s.registers →
    ∃ t t', transact cw s = .next t ∧ transact cw s' = .next t' ∧
      t'.registers = t.registers ∧ t'.response = t.response) ∧
  ∀ i : Instr, i.mnemonic ∈
    ["STATUS", "INIT", "RESET", "ADV", "KEYWIN", "PUBKEY", "ENC", "DEC", "RESERVED"]
end

