-- ==== Sys2Proof/Laws/State.lean ====
section
/-! SUPPORT. What each named update of State does to each field, one lemma per field. -/

namespace Sys2Proof.Machine

@[simp] theorem respond_state (st : Status) (d : Word) (s : State) :
    (respond st d s).state = s.state := rfl
@[simp] theorem respond_seed (st : Status) (d : Word) (s : State) :
    (respond st d s).seed = s.seed := rfl
@[simp] theorem respond_cfg (st : Status) (d : Word) (s : State) :
    (respond st d s).cfg = s.cfg := rfl
@[simp] theorem respond_adv (st : Status) (d : Word) (s : State) :
    (respond st d s).adv = s.adv := rfl
@[simp] theorem respond_errf (st : Status) (d : Word) (s : State) :
    (respond st d s).errf = s.errf := rfl
@[simp] theorem respond_phase (st : Status) (d : Word) (s : State) :
    (respond st d s).phase = s.phase := rfl
@[simp] theorem respond_rspStatus (st : Status) (d : Word) (s : State) :
    (respond st d s).rspStatus = st.code := rfl
@[simp] theorem respond_rspData (st : Status) (d : Word) (s : State) :
    (respond st d s).rspData = d := rfl
@[simp] theorem respond_cw (st : Status) (d : Word) (s : State) :
    (respond st d s).cw = s.cw := rfl
@[simp] theorem respond_remaining (st : Status) (d : Word) (s : State) :
    (respond st d s).remaining = s.remaining := rfl
@[simp] theorem respond_host (st : Status) (d : Word) (s : State) :
    (respond st d s).host = s.host := rfl

@[simp] theorem raiseErr_state (e : Status) (s : State) :
    (raiseErr e s).state = s.state := rfl
@[simp] theorem raiseErr_seed (e : Status) (s : State) :
    (raiseErr e s).seed = s.seed := rfl
@[simp] theorem raiseErr_cfg (e : Status) (s : State) :
    (raiseErr e s).cfg = s.cfg := rfl
@[simp] theorem raiseErr_adv (e : Status) (s : State) :
    (raiseErr e s).adv = s.adv := rfl
@[simp] theorem raiseErr_errf (e : Status) (s : State) :
    (raiseErr e s).errf = s.errf ||| e.errBit := rfl
@[simp] theorem raiseErr_phase (e : Status) (s : State) :
    (raiseErr e s).phase = s.phase := rfl
@[simp] theorem raiseErr_rspStatus (e : Status) (s : State) :
    (raiseErr e s).rspStatus = e.code := rfl
@[simp] theorem raiseErr_rspData (e : Status) (s : State) :
    (raiseErr e s).rspData = 0x0#64 := rfl
@[simp] theorem raiseErr_cw (e : Status) (s : State) :
    (raiseErr e s).cw = s.cw := rfl
@[simp] theorem raiseErr_remaining (e : Status) (s : State) :
    (raiseErr e s).remaining = s.remaining := rfl
@[simp] theorem raiseErr_host (e : Status) (s : State) :
    (raiseErr e s).host = s.host := rfl

@[simp] theorem advance_state (s : State) :
    (advance s).state = powerMod s.state s.seed := rfl
@[simp] theorem advance_seed (s : State) :
    (advance s).seed = s.seed := rfl
@[simp] theorem advance_cfg (s : State) :
    (advance s).cfg = s.cfg := rfl
@[simp] theorem advance_adv (s : State) :
    (advance s).adv = true := rfl
@[simp] theorem advance_errf (s : State) :
    (advance s).errf = s.errf := rfl
@[simp] theorem advance_phase (s : State) :
    (advance s).phase = s.phase := rfl
@[simp] theorem advance_rspStatus (s : State) :
    (advance s).rspStatus = s.rspStatus := rfl
@[simp] theorem advance_rspData (s : State) :
    (advance s).rspData = s.rspData := rfl
@[simp] theorem advance_cw (s : State) :
    (advance s).cw = s.cw := rfl
@[simp] theorem advance_remaining (s : State) :
    (advance s).remaining = s.remaining := rfl
@[simp] theorem advance_host (s : State) :
    (advance s).host = s.host := rfl

@[simp] theorem hardwareReset_state (s : State) :
    (hardwareReset s).state = Config.G := rfl
@[simp] theorem hardwareReset_seed (s : State) :
    (hardwareReset s).seed = 0x0#64 := rfl
@[simp] theorem hardwareReset_cfg (s : State) :
    (hardwareReset s).cfg = false := rfl
@[simp] theorem hardwareReset_adv (s : State) :
    (hardwareReset s).adv = false := rfl
@[simp] theorem hardwareReset_errf (s : State) :
    (hardwareReset s).errf = 0b00000#5 := rfl
@[simp] theorem hardwareReset_phase (s : State) :
    (hardwareReset s).phase = .idle := rfl
@[simp] theorem hardwareReset_rspStatus (s : State) :
    (hardwareReset s).rspStatus = 0x0#4 := rfl
@[simp] theorem hardwareReset_rspData (s : State) :
    (hardwareReset s).rspData = 0x0#64 := rfl
@[simp] theorem hardwareReset_cw (s : State) :
    (hardwareReset s).cw = s.cw := rfl
@[simp] theorem hardwareReset_remaining (s : State) :
    (hardwareReset s).remaining = s.remaining := rfl
@[simp] theorem hardwareReset_host (s : State) :
    (hardwareReset s).host = s.host := rfl

@[simp] theorem accept_state (cw : CommandWord) (s : State) :
    (accept cw s).state = s.state := rfl
@[simp] theorem accept_seed (cw : CommandWord) (s : State) :
    (accept cw s).seed = s.seed := rfl
@[simp] theorem accept_cfg (cw : CommandWord) (s : State) :
    (accept cw s).cfg = s.cfg := rfl
@[simp] theorem accept_adv (cw : CommandWord) (s : State) :
    (accept cw s).adv = s.adv := rfl
@[simp] theorem accept_errf (cw : CommandWord) (s : State) :
    (accept cw s).errf = s.errf := rfl
@[simp] theorem accept_phase (cw : CommandWord) (s : State) :
    (accept cw s).phase = .busy := rfl
@[simp] theorem accept_rspStatus (cw : CommandWord) (s : State) :
    (accept cw s).rspStatus = s.rspStatus := rfl
@[simp] theorem accept_rspData (cw : CommandWord) (s : State) :
    (accept cw s).rspData = s.rspData := rfl
@[simp] theorem accept_cw (cw : CommandWord) (s : State) :
    (accept cw s).cw = cw := rfl
@[simp] theorem accept_remaining (cw : CommandWord) (s : State) :
    (accept cw s).remaining = Config.lat cw - 1 := rfl
@[simp] theorem accept_host (cw : CommandWord) (s : State) :
    (accept cw s).host = s.host := rfl

@[simp] theorem nextPins_state (s : State) :
    s.nextPins.state = s.state := rfl
@[simp] theorem nextPins_seed (s : State) :
    s.nextPins.seed = s.seed := rfl
@[simp] theorem nextPins_cfg (s : State) :
    s.nextPins.cfg = s.cfg := rfl
@[simp] theorem nextPins_adv (s : State) :
    s.nextPins.adv = s.adv := rfl
@[simp] theorem nextPins_errf (s : State) :
    s.nextPins.errf = s.errf := rfl
@[simp] theorem nextPins_phase (s : State) :
    s.nextPins.phase = s.phase := rfl
@[simp] theorem nextPins_rspStatus (s : State) :
    s.nextPins.rspStatus = s.rspStatus := rfl
@[simp] theorem nextPins_rspData (s : State) :
    s.nextPins.rspData = s.rspData := rfl
@[simp] theorem nextPins_cw (s : State) :
    s.nextPins.cw = s.cw := rfl
@[simp] theorem nextPins_remaining (s : State) :
    s.nextPins.remaining = s.remaining := rfl
@[simp] theorem nextPins_host (s : State) :
    s.nextPins.host = s.host.tail := rfl

end Sys2Proof.Machine
end

