-- ==== Sys2Proof/Laws/Ops.lean ====
section
/-! SUPPORT. What the shared operations can do, said once: the check for CFG, the length check, the cipher command, error bits, and the port under exec. -/

namespace Sys2Proof.Machine

theorem whenConfigured_of_cfg {s : State} (body : State → State) (h : s.cfg = true) :
    whenConfigured body s = body s := by simp [whenConfigured, h]

theorem whenConfigured_of_not_cfg {s : State} (body : State → State) (h : s.cfg = false) :
    whenConfigured body s = raiseErr .notConfigured s := by simp [whenConfigured, h]

/-- The check for CFG ends in NOT_CONFIGURED or runs the body. -/
theorem whenConfigured_cases (body : State → State) (s : State) :
    (s.cfg = false ∧ whenConfigured body s = raiseErr .notConfigured s) ∨
    (s.cfg = true ∧ whenConfigured body s = body s) := by
  cases h : s.cfg <;> simp [whenConfigured, h]

theorem blockLengthOk_iff (len : BitVec 4) : blockLengthOk len = true ↔ len = 2#4 := by
  simp [blockLengthOk, Config.blockBytes]

/-- A cipher command ends in one of its two errors or takes the cipher step. -/
theorem cipherCommand_cases (len : BitVec 4) (block : Block) (s : State) :
    (s.cfg = false ∧ cipherCommand len block s = raiseErr .notConfigured s) ∨
    (s.cfg = true ∧ len ≠ 2#4 ∧ cipherCommand len block s = raiseErr .invalidBlockSize s) ∨
    (s.cfg = true ∧ len = 2#4 ∧ cipherCommand len block s = cipherStep block s) := by
  by_cases hl : len = 2#4 <;> cases h : s.cfg <;>
    simp [cipherCommand, whenConfigured, blockLengthOk_iff, h, hl]

/-- The flag of an error is bit `code - 1`. -/
theorem errBit_eq_shift (e : Status) (h : e ≠ .ok) : e.errBit = 1#5 <<< (e.code.toNat - 1) := by
  cases e <;> first | exact absurd rfl h | decide

/-- Everything a command can do: report an error, or respond OK after at most one of three register updates. -/
theorem exec_cases {i : Instr} {s t : State} (h : exec i s = .next t) :
    (∃ e, e ≠ Status.ok ∧ t = raiseErr e s) ∨
    (∃ d, t = respond .ok d s) ∨
    (∃ seed, i = .init seed ∧ s.cfg = false ∧
      t = respond .ok 0x0#64
        { s with seed := seed, state := Config.G, cfg := true, adv := false }) ∨
    (i = .reset ∧ s.cfg = true ∧ t = respond .ok 0x0#64 { s with state := Config.G }) ∨
    (s.cfg = true ∧ ∃ d, t = respond .ok d (advance s)) := by
  have cipher : ∀ len block, cipherCommand len block s = t →
      (∃ e, e ≠ Status.ok ∧ t = raiseErr e s) ∨ (s.cfg = true ∧ ∃ d, t = respond .ok d (advance s)) := by
    rintro len block rfl
    rcases cipherCommand_cases len block s with ⟨-, e⟩ | ⟨-, -, e⟩ | ⟨hc, -, e⟩
    · exact .inl ⟨_, by decide, e⟩
    · exact .inl ⟨_, by decide, e⟩
    · exact .inr ⟨hc, _, e⟩
  cases i with
  | status => cases h; exact .inr (.inl ⟨_, rfl⟩)
  | init seed =>
    cases hc : s.cfg <;> simp [exec, execInit, hc] at h <;> subst h
    · exact .inr (.inr (.inl ⟨seed, rfl, rfl, rfl⟩))
    · exact .inl ⟨_, by decide, rfl⟩
  | reset =>
    cases h
    rcases whenConfigured_cases (fun s => respond .ok 0x0#64 { s with state := Config.G }) s with
      ⟨-, e⟩ | ⟨hc, e⟩
    · exact .inl ⟨_, by decide, e⟩
    · exact .inr (.inr (.inr (.inl ⟨rfl, hc, e⟩)))
  | adv =>
    cases h
    rcases whenConfigured_cases (fun s => respond .ok 0x0#64 (advance s)) s with ⟨-, e⟩ | ⟨hc, e⟩
    · exact .inl ⟨_, by decide, e⟩
    · exact .inr (.inr (.inr (.inr ⟨hc, _, e⟩)))
  | keywin =>
    cases hc : s.cfg <;> cases ha : s.adv <;>
      simp [exec, execKeywin, whenConfigured, hc, ha] at h <;> subst h
    · exact .inl ⟨_, by decide, rfl⟩
    · exact .inl ⟨_, by decide, rfl⟩
    · exact .inl ⟨_, by decide, rfl⟩
    · exact .inr (.inl ⟨_, rfl⟩)
  | pubkey =>
    cases h
    rcases whenConfigured_cases (fun s => respond .ok (powerMod Config.G s.seed) s) s with
      ⟨-, e⟩ | ⟨-, e⟩
    · exact .inl ⟨_, by decide, e⟩
    · exact .inr (.inl ⟨_, e⟩)
  | enc len block =>
    rcases cipher len block (by simpa [exec, execEnc] using h) with he | ha
    · exact .inl he
    · exact .inr (.inr (.inr (.inr ha)))
  | dec len block =>
    rcases cipher len block (by simpa [exec, execDec] using h) with he | ha
    · exact .inl he
    · exact .inr (.inr (.inr (.inr ha)))
  | reserved op => cases h; exact .inl ⟨_, by decide, rfl⟩

/-- No command touches the port's own registers or the host's pins. -/
theorem exec_keeps_port {i : Instr} {s t : State} (h : exec i s = .next t) :
    t.phase = s.phase ∧ t.cw = s.cw ∧ t.remaining = s.remaining ∧ t.host = s.host := by
  rcases exec_cases h with ⟨e, -, rfl⟩ | ⟨d, rfl⟩ | ⟨_, -, -, rfl⟩ | ⟨-, -, rfl⟩ | ⟨-, d, rfl⟩ <;> simp

/-- A command reads none of the port's registers: other values there are carried through. -/
theorem exec_carries_port {i : Instr} {s t : State} (h : exec i s = .next t)
    (p : Phase) (cw : CommandWord) (n : Nat) (pins : List PortIn) :
    exec i { s with phase := p, cw := cw, remaining := n, host := pins } =
      .next { t with phase := p, cw := cw, remaining := n, host := pins } := by
  obtain ⟨_, _, cfg, adv, _, _, _, _, _, _, _⟩ := s
  cases i with
  | enc len block | dec len block =>
    cases hl : blockLengthOk len <;> cases cfg <;>
      simp [exec, execEnc, execDec, cipherCommand, whenConfigured, hl] at h ⊢ <;> subst h <;> rfl
  | _ => cases cfg <;> cases adv <;> cases h <;> rfl

end Sys2Proof.Machine
end

