-- ==== Sys2Proof/Laws/Clock.lean ====
section
/-! SUPPORT. Everything one rising edge can do, said once. -/

namespace Sys2Proof.Machine

/-- The six branches of R65's process. -/
theorem edge_cases {p : PortIn} {s t : State} (h : edge p s = .next t) :
    (p.rstN = false ∧ t = hardwareReset s) ∨
    (p.rstN = true ∧ s.phase = .idle ∧ p.cmdValid = true ∧ t = accept p.commandWord s) ∨
    (p.rstN = true ∧ s.phase = .busy ∧ s.remaining = 0 ∧
      ∃ u, exec (decode s.cw) s = .next u ∧ t = { u with phase := .resp }) ∨
    (p.rstN = true ∧ s.phase = .busy ∧ s.remaining ≠ 0 ∧
      t = { s with remaining := s.remaining - 1 }) ∨
    (p.rstN = true ∧ s.phase = .resp ∧ p.rspReady = true ∧ t = { s with phase := .idle }) ∨
    (p.rstN = true ∧ t = s ∧
      (s.phase = .idle ∧ p.cmdValid = false ∨ s.phase = .resp ∧ p.rspReady = false)) := by
  cases hr : p.rstN <;> simp only [edge, hr, if_true, Bool.false_eq_true, if_false] at h
  · cases h; exact .inl ⟨rfl, rfl⟩
  · right
    cases hp : s.phase <;> simp only [hp] at h
    · cases hv : p.cmdValid <;> simp [hv] at h <;> subst h <;> simp
    · by_cases h0 : s.remaining = 0
      · simp only [h0, if_true, complete] at h
        split at h <;> simp at h
        subst h
        exact .inr (.inl ⟨rfl, rfl, h0, _, ‹_›, rfl⟩)
      · simp only [h0, if_false] at h
        cases h
        exact .inr (.inr (.inl ⟨rfl, rfl, h0, rfl⟩))
    · cases hv : p.rspReady <;> simp [hv] at h <;> subst h <;> simp

end Sys2Proof.Machine
end

