-- ==== Sys2Proof/Laws/Decode.lean ====
section
/-! SUPPORT. A command word as a number, and the fields read from it, one lemma per field. -/

namespace Sys2Proof

theorem commandWord_toNat (op len : BitVec 4) (data : Word) :
    (commandWord op len data).toNat = op.toNat * 2 ^ 68 + len.toNat * 2 ^ 64 + data.toNat := by
  have hl := len.isLt
  have hd := data.isLt
  simp only [commandWord, BitVec.toNat_append]
  rw [← Nat.shiftLeft_add_eq_or_of_lt hd, ← Nat.shiftLeft_add_eq_or_of_lt hl]
  simp only [Nat.shiftLeft_eq]
  omega

@[simp] theorem opField_commandWord (op len : BitVec 4) (data : Word) :
    opField (commandWord op len data) = op := by
  apply BitVec.eq_of_toNat_eq
  have ho := op.isLt
  have hl := len.isLt
  have hd := data.isLt
  simp only [opField, BitVec.extractLsb'_toNat, commandWord_toNat, Nat.shiftRight_eq_div_pow]
  omega

@[simp] theorem lenField_commandWord (op len : BitVec 4) (data : Word) :
    lenField (commandWord op len data) = len := by
  apply BitVec.eq_of_toNat_eq
  have hl := len.isLt
  have hd := data.isLt
  simp only [lenField, BitVec.extractLsb'_toNat, commandWord_toNat, Nat.shiftRight_eq_div_pow]
  omega

@[simp] theorem dataField_commandWord (op len : BitVec 4) (data : Word) :
    dataField (commandWord op len data) = data := by
  apply BitVec.eq_of_toNat_eq
  have hd := data.isLt
  simp only [dataField, BitVec.extractLsb'_toNat, commandWord_toNat, Nat.shiftRight_eq_div_pow]
  omega

@[simp] theorem blockField_commandWord (op len : BitVec 4) (data : Word) :
    blockField (commandWord op len data) = data.extractLsb' 0 16 := by
  apply BitVec.eq_of_toNat_eq
  have hd := data.isLt
  simp only [blockField, BitVec.extractLsb'_toNat, commandWord_toNat, Nat.shiftRight_eq_div_pow]
  omega

end Sys2Proof
end

