-- ==== Sys2Proof/Laws/PerInstr.lean ====
section
/-! SUPPORT. The family EncodeOpcode: the encoded word of an instruction carries the instruction's opcode in bits 71:68. -/

namespace Sys2Proof.Laws.EncodeOpcode

/-- The word's `op` field is the instruction's opcode (R62, R68). -/
def Statement (i : Instr) : Prop := opField (encode i) = i.opcode

theorem status : Statement .status := opField_commandWord _ _ _
theorem init (seed : Word) : Statement (.init seed) := opField_commandWord _ _ _
theorem reset : Statement .reset := opField_commandWord _ _ _
theorem adv : Statement .adv := opField_commandWord _ _ _
theorem keywin : Statement .keywin := opField_commandWord _ _ _
theorem pubkey : Statement .pubkey := opField_commandWord _ _ _
theorem enc (len : BitVec 4) (block : Block) : Statement (.enc len block) := opField_commandWord _ _ _
theorem dec (len : BitVec 4) (block : Block) : Statement (.dec len block) := opField_commandWord _ _ _
theorem reserved (op : BitVec 4) : Statement (.reserved op) := opField_commandWord _ _ _

end Sys2Proof.Laws.EncodeOpcode
end

