-- ==== Sys2Proof/Laws/Run.lean ====
section
/-! SUPPORT. Runs of edges: one edge more in front of a run, one run after another, and the run of a captured command under quiet pins to its response. -/

namespace Sys2Proof.Machine

/-- A step in front of a run. -/
theorem runEdges_cons {n : Nat} {s t u : State} {tr : Trace}
    (hs : step s = .next t) (hr : runEdges n t = .next (tr, u)) :
    runEdges (n + 1) s = .next (tr.record s, u) := by simp only [runEdges, hs, hr]

/-- One run after another: the traces join. -/
theorem runEdges_append {m n : Nat} {s t u : State} {tr tr' : Trace}
    (hm : runEdges m s = .next (tr, t)) (hn : runEdges n t = .next (tr', u)) :
    runEdges (m + n) s =
      .next (⟨tr.words ++ tr'.words, tr.responses ++ tr'.responses⟩, u) := by
  induction m generalizing s tr with
  | zero => cases hm; simpa using hn
  | succ m ih =>
    simp only [runEdges] at hm
    split at hm
    · split at hm
      · cases hm
        rw [Nat.succ_add, runEdges_cons ‹_› (ih ‹_›), Trace.record, Trace.record]
        split <;> split <;> rfl
      · cases hm
      · cases hm
    · cases hm
    · cases hm

/-- An edge at which no command is accepted and no response consumed leaves no trace. -/
theorem Trace.record_of_busy {s : State} (tr : Trace) (hp : s.phase = .busy) : tr.record s = tr := by
  cases hr : s.pins.rstN <;>
    simp [Trace.record, accepted, consumed, cmdReady, rspValid, hp, hr]

/-- A captured command under quiet pins: its remaining edges and the completing one, then RESP with the effect of exec. -/
theorem runEdges_busy_quiet {t : State} {rest : List PortIn} :
    ∀ {s : State}, s.phase = .busy →
      s.host = List.replicate (s.remaining + 1) PortIn.quiet ++ rest →
      exec (decode s.cw) s = .next t →
      runEdges (s.remaining + 1) s =
        .next (⟨[], []⟩, { t with phase := .resp, remaining := 0, host := rest }) := by
  intro s hp hh he
  induction hn : s.remaining generalizing s t with
  | zero =>
    have hk := exec_keeps_port he
    have hc := exec_carries_port he s.phase s.cw s.remaining rest
    refine (runEdges_cons (t := { t with phase := .resp, remaining := 0, host := rest })
      ?_ rfl).trans (by rw [Trace.record_of_busy _ hp])
    simp only [step, edge, State.pins, State.nextPins, hh, hn, hp, complete] at hc ⊢
    simp only [List.replicate_succ, List.replicate_zero, List.cons_append, List.nil_append,
      List.headD_cons, List.tail_cons, PortIn.quiet, if_true]
    rw [hp, hn] at hk
    rw [hc, hk.2.1]
  | succ n ih =>
    let s' : State :=
      { s with remaining := n, host := List.replicate (n + 1) PortIn.quiet ++ rest }
    have hstep : step s = .next s' := by
      simp [step, edge, State.pins, State.nextPins, hh, hn, hp, List.replicate_succ,
        PortIn.quiet, s']
    have he' : exec (decode s'.cw) s' =
        .next { t with phase := s.phase, cw := s.cw, remaining := n, host := s'.host } :=
      exec_carries_port he s.phase s.cw n s'.host
    have hr := ih (s := s') hp rfl he' rfl
    rw [runEdges_cons hstep hr, Trace.record_of_busy _ hp, (exec_keeps_port he).2.1]

end Sys2Proof.Machine
end

