-- ==== Sys2Proof/Tests/Slice0.lean ====
section
/-! SUPPORT. Small tests with values taken from spec/ (mostly spec/95_test_vectors.md and spec/40_modexp.md R111), the smoke test of wellFormed, and for each statement with hypotheses a witness that meets them. -/

namespace Sys2Proof.Tests
open Sys2Proof.Machine

/-- The next state of an outcome. -/
def next? {α : Type} : Host.Outcome α Fault Refusal → Option α
  | .next t => some t
  | .fault _ => none
  | .refused _ => none

/-- What a vector of 95_test_vectors.md section 2.3 shows of a state: response status and data, STATE, and CFG, ADV, ERRF. -/
def view (s : State) : BitVec 4 × Word × Word × Bool × Bool × BitVec 5 :=
  (s.rspStatus, s.rspData, s.state, s.cfg, s.adv, s.errf)

/-- The view after the one step that runs a command word. -/
def runWord (s : State) (w : Nat) : Option (BitVec 4 × Word × Word × Bool × Bool × BitVec 5) :=
  (next? (step (s.withFetchWord 72 w))).map view

/-- After `INIT seed`. -/
def configured (seed : Word) : State := { State.reset with cfg := true, seed := seed }

/-- After `INIT 5; ADV`. -/
def advanced : State := { configured 5#64 with adv := true, state := 0x1FFFFFDD00000062#64 }

/-! ### wellFormed -/

/-- The one check: a reserved command needs `op[3] = 1`. -/
theorem test_wellFormed_refuses_a_reserved_seven : (Instr.reserved 0x7#4).wellFormed = false := by decide
theorem test_wellFormed_accepts_a_reserved_eight : (Instr.reserved 0x8#4).wellFormed = true := by decide

/-! ### Decoding: words written out from R62 as op, len, data -/

theorem test_decode_status : decode 0x050000000000001234#72 = .status := by decide
theorem test_decode_init :
    decode 0x10FFFFFFFFFFFFFFFF#72 = .init 0xFFFFFFFFFFFFFFFF#64 := by decide
theorem test_decode_reset : decode 0x200000000000000000#72 = .reset := by decide
theorem test_decode_adv : decode 0x300000000000000000#72 = .adv := by decide
theorem test_decode_keywin : decode 0x47FFFFFFFFFFFFFFFF#72 = .keywin := by decide
theorem test_decode_pubkey : decode 0x500000000000000000#72 = .pubkey := by decide
theorem test_decode_enc : decode 0x62DEADBEEF00004869#72 = .enc 2#4 0x4869#16 := by decide
theorem test_decode_dec : decode 0x710000000000000048#72 = .dec 1#4 0x0048#16 := by decide
theorem test_decode_reserved : decode 0xA20000000000004869#72 = .reserved 0xA#4 := by decide
theorem test_encode_dec : encode (.dec 2#4 0x480B#16) = 0x72000000000000480B#72 := by decide
theorem test_encode_init : encode (.init 5#64) = 0x100000000000000005#72 := by decide
theorem test_decodeTableWord_short : decodeTableWord 68 0x5 = some .status := by decide
theorem test_decodeTableWord_too_wide : decodeTableWord 80 0x0 = none := by decide

/-! ### power_mod: R111 -/

theorem test_powerMod_seed5_second : powerMod 0x1FFFFFDD00000062#64 5#64 = 0x1A6C712F800E6F93#64 := by decide
theorem test_powerMod_exponent_does_not_wrap :
    powerMod Config.G 0xFFFFFFFFFFFFFFFF#64 = 0x1FFC6868000A2900#64 := by decide
theorem test_powerMod_wide_products : powerMod 0x123456789#64 0xFFFF#64 = 0x1660A44F0ADA5742#64 := by decide
theorem test_powerMod_minus_one : powerMod 0x1FFFFFFFFFFFFFFE#64 1#64 = 1#64 := by decide
theorem test_powerModLoop_seed5 : powerModLoop Config.G.toNat 5 = 0x1FFFFFDD00000062 := by
  simp [powerModLoop, Config.G, Config.P]

/-! ### Commands: 95_test_vectors.md section 2.3, each run by one step -/

theorem test_status_after_errors :
    runWord { configured 0#64 with adv := true, errf := 0b11111#5 } 0x000000000000000000 =
      some (0#4, 0x1F03#64, Config.G, true, true, 0b11111#5) := by decide
theorem test_status_ignores_fields :
    runWord (configured 5#64) 0x050000000000001234 =
      some (0#4, 1#64, Config.G, true, false, 0#5) := by decide
theorem test_init_loads_seed :
    (next? (step (State.reset.withFetchWord 72 0x10FFFFFFFFFFFFFFFF))).map (fun t => (t.seed, t.cfg)) =
      some (0xFFFFFFFFFFFFFFFF#64, true) := by decide
theorem test_init_again_is_refused :
    runWord (configured 5#64) 0x100000000000000007 =
      some (3#4, 0#64, Config.G, true, false, 0b00100#5) := by decide
theorem test_reset_after_adv :
    runWord advanced 0x200000000000000000 = some (0#4, 0#64, Config.G, true, true, 0#5) := by decide
theorem test_reset_before_init :
    runWord State.reset 0x200000000000000000 =
      some (2#4, 0#64, Config.G, false, false, 0b00010#5) := by decide
theorem test_adv_seed_5 :
    runWord (configured 5#64) 0x300000000000000000 =
      some (0#4, 0#64, 0x1FFFFFDD00000062#64, true, true, 0#5) := by decide
set_option maxRecDepth 10000 in
theorem test_adv_seed_P_minus_2 :
    runWord (configured 0x1FFFFFFFFFFFFFFD#64) 0x300000000000000000 =
      some (0#4, 0#64, 1#64, true, true, 0#5) := by decide
theorem test_keywin_ignored_fields :
    runWord advanced 0x47FFFFFFFFFFFFFFFF =
      some (0#4, 0x62#64, 0x1FFFFFDD00000062#64, true, true, 0#5) := by decide
theorem test_keywin_before_advance :
    runWord (configured 5#64) 0x400000000000000000 =
      some (5#4, 0#64, Config.G, true, false, 0b10000#5) := by decide
theorem test_pubkey_seed_6 :
    runWord (configured 6#64) 0x500000000000000000 =
      some (0#4, 0x000000547FFFFF11#64, Config.G, true, false, 0#5) := by decide
theorem test_pubkey_before_init :
    runWord State.reset 0x500000000000000000 =
      some (2#4, 0#64, Config.G, false, false, 0b00010#5) := by decide
theorem test_enc_hi :
    runWord (configured 5#64) 0x62DEADBEEF00004869 =
      some (0#4, 0x480B#64, 0x1FFFFFDD00000062#64, true, true, 0#5) := by decide
theorem test_enc_3_bytes_does_not_advance :
    runWord (configured 5#64) 0x630000000000004869 =
      some (1#4, 0#64, Config.G, true, false, 0b00001#5) := by decide
theorem test_dec_inverts_hi :
    runWord (configured 5#64) 0x72000000000000480B =
      some (0#4, 0x4869#64, 0x1FFFFFDD00000062#64, true, true, 0#5) := by decide
theorem test_dec_before_init_wins_over_length :
    runWord State.reset 0x710000000000000048 =
      some (2#4, 0#64, Config.G, false, false, 0b00010#5) := by decide
theorem test_reserved_before_init :
    runWord State.reset 0x800000000000000000 =
      some (4#4, 0#64, Config.G, false, false, 0b01000#5) := by decide
theorem test_reserved_after_init :
    runWord (configured 5#64) 0xA20000000000004869 =
      some (4#4, 0#64, Config.G, true, false, 0b01000#5) := by decide

/-! ### The port and the host -/

theorem test_reset_edge_abandons_a_command :
    (next? (step { advanced with phase := .busy, host := [PortIn.assertReset] })).map
      (fun t => (t.phase, t.registers)) = some (.idle, State.reset.registers) := by decide
theorem test_accept_captures_the_word :
    (next? (step { State.reset with host := [PortIn.offer 0x620000000000004869#72] })).map
      (fun t => (t.phase, t.cw)) = some (.busy, 0x620000000000004869#72) := by decide
/-- P1's first ciphertext block (R170). -/
theorem test_encbuf_hi :
    (next? (encbuf [0x48#8, 0x69#8] (configured 5#64))).map (·.1) =
      some (.bytes [0x48#8, 0x0B#8]) := by decide
/-- P5's odd buffer. -/
theorem test_encbuf_odd :
    (next? (encbuf [0x6F#8, 0x64#8, 0x64#8] (configured 5#64))).map (·.1) =
      some .unalignedBuffer := by decide
/-- No RESET is issued for an odd buffer (R207, log entry 11). -/
theorem test_redecrypt_odd_issues_no_reset :
    (next? (redecrypt [0x6F#8] advanced)).map (fun r => (r.1, r.2.state)) =
      some (.unalignedBuffer, advanced.state) := by decide
/-- Lines of P3 and R76. -/
theorem test_assemble_enc_3 :
    assembleText "  ENC/3 0x123456 ; wrong length".toList = some [0x630000000000123456#72] := by decide
theorem test_assemble_raw :
    assembleText ".cmd 0xF, 0, 0x0".toList = some [0xF00000000000000000#72] := by decide
theorem test_assemble_block_out_of_range : assembleText "ENC 65536".toList = none := by decide
theorem test_assemble_decimal_init : assembleText "INIT 5".toList = some [0x100000000000000005#72] := by decide

/-! ### Witnesses: states and operands that meet a statement's hypotheses, clause by clause -/

/-- A core whose captured word is `w`, its latency elapsed. -/
def busyWith (w : CommandWord) : State := { configured 5#64 with phase := .busy, cw := w }

/-- A core that presents a response to a host with the pins `p`. -/
def respondingTo (p : PortIn) : State := { configured 5#64 with phase := .resp, host := [p] }

theorem witness_EncodedInstructionDecodesBack : (Instr.reserved 0x8#4).wellFormed = true := by decide
theorem witness_DecodingIsByOpcodeAlone :
    (0x8#4).getLsbD 3 = true ∧ (0xF#4).getLsbD 3 = true := by decide
theorem witness_IgnoredFieldsNeverMatter :
    (0xF#4 = 0x0#4 ∨ 0xF#4 = 0x2#4 ∨ 0xF#4 = 0x3#4 ∨ 0xF#4 = 0x4#4 ∨ 0xF#4 = 0x5#4 ∨
      (0xF#4).getLsbD 3 = true) ∧ (0x7#4 = 0x6#4 ∨ 0x7#4 = 0x7#4) := by decide
theorem witness_AssemblerFormsAndRanges :
    2 ^ 64 ≤ 2 ^ 64 ∧ 2 ^ 16 ≤ 65536 ∧ (2 ^ 4 ≤ 16 ∨ 2 ^ 64 ≤ 0) ∧
      (2 ^ 4 ≤ 0 ∨ 2 ^ 4 ≤ 0 ∨ 2 ^ 64 ≤ 2 ^ 64) := by decide
theorem witness_PowerModIsTheLiteralLoop :
    (0x1FFFFFFFFFFFFFFE#64).toNat < Config.P.toNat := by decide
theorem witness_PowerModExponentZeroIsIdentity :
    (0x1FFFFFFFFFFFFFFE#64).toNat < Config.P.toNat ∧ (configured 0#64).cfg = true ∧
      (configured 0#64).seed = 0#64 ∧ (configured 0#64).state.toNat < Config.P.toNat := by decide
theorem witness_NonzeroResiduesStayNonzero :
    (1 ≤ (1#64).toNat ∧ (1#64).toNat ≤ Config.P.toNat - 1) ∧
      1 ≤ (0x1FFFFFFFFFFFFFFE#64).toNat ∧ (0x1FFFFFFFFFFFFFFE#64).toNat ≤ Config.P.toNat - 1 := by
  decide
theorem witness_ExponentsReduceModuloPMinusOne :
    (1 ≤ Config.G.toNat ∧ Config.G.toNat ≤ Config.P.toNat - 1) ∧
      ((0#64).toNat + 1) % (Config.P.toNat - 1) =
        ((Config.P - 1#64).toNat + 1) % (Config.P.toNat - 1) := by decide
theorem witness_InitConstructs :
    State.reset.cfg = false ∧ (configured 5#64).cfg = true ∧
      advances (decode 0x400000000000000000#72) = false ∧
      advances (decode 0x630000000000000000#72) = false := by decide
theorem witness_ResetRestoresTheGenerator :
    advanced.cfg = true ∧ advanced.adv = true ∧ (configured 5#64).cfg = true ∧
      (configured 5#64).adv = false ∧
      (configured 5#64).state = 0x7FFFFFFF#64 ∧ State.reset.cfg = false := by decide
/-- The seeds 0, P − 1 and P − 2 among all the seeds of a configured core. -/
theorem witness_AdvAppliesTheOneWayStep :
    (∀ seed, (configured seed).cfg = true ∧ (configured seed).StateInRange ∧
      (configured seed).seed = seed) ∧
      (let one := { configured 5#64 with state := 1#64 }
       one.cfg = true ∧ one.StateInRange ∧ one.state = 1#64) ∧
      State.reset.cfg = false :=
  ⟨fun _ => ⟨rfl, (by decide : State.reset.StateInRange), rfl⟩, by decide⟩
theorem witness_KeywinReturnsTheWindow :
    (advanced.cfg = true ∧ advanced.adv = true) ∧
      (let fresh := { configured 5#64 with adv := true }
       fresh.cfg = true ∧ fresh.adv = true ∧ fresh.state = 0x7FFFFFFF#64) ∧
      ((configured 5#64).cfg = true ∧ (configured 5#64).adv = false) ∧
      State.reset.cfg = false := by decide
theorem witness_PubkeyReturnsTheSeedsPower :
    (∀ seed, (configured seed).cfg = true ∧ (configured seed).seed = seed ∧
      (configured seed).state = 0x7FFFFFFF#64) ∧
      State.reset.cfg = false := ⟨fun _ => ⟨rfl, rfl, rfl⟩, rfl⟩
set_option maxRecDepth 10000 in
theorem witness_EncAdvancesThenXors :
    ((configured 0#64).cfg = true ∧ (configured 0#64).seed = 0#64 ∧
      (configured 0#64).state = 0x7FFFFFFF#64 ∧ 2#4 = 2#4) ∧
      (1#4 ≠ 2#4 ∧ 3#4 ≠ 2#4 ∧ 15#4 ≠ 2#4) ∧ State.reset.cfg = false ∧
      (let kw := (exactPower (configured 5#64).state (configured 5#64).seed).extractLsb' 0 16
       kw = 0x0062#16) := by decide
theorem witness_DecPerformsTheEncOperation :
    (configured 5#64).cfg = true ∧ 2#4 = 2#4 ∧ 0#4 ≠ 2#4 ∧ State.reset.cfg = false := by decide
theorem witness_CipherLanesNeverMix : (configured 5#64).cfg = true := by decide
theorem witness_StatusWordBitByBit : State.reset.cfg = false := by decide
theorem witness_ReservedOpcodesAreIllegal : 0x8 ≤ (0x8#4).toNat ∧ 0x8 ≤ (0xF#4).toNat := by decide
theorem witness_UnconfiguredCommandsAreRefused :
    (∀ i ∈ [Instr.reset, .adv, .keywin, .pubkey, .enc 3#4 0#16, .dec 2#4 0#16],
      needsSeed i = true) ∧ State.reset.cfg = false := by decide
/-- All six answers of the priority list occur (R206's own examples among them). -/
theorem witness_OneStatusByPriority :
    (runWord State.reset 0xF30000000000000000).map (·.1) = some 4#4 ∧
      (runWord State.reset 0x630000000000000000).map (·.1) = some 2#4 ∧
      (runWord (configured 5#64) 0x100000000000000000).map (·.1) = some 3#4 ∧
      (runWord (configured 5#64) 0x7F0000000000000000).map (·.1) = some 1#4 ∧
      (runWord (configured 5#64) 0x400000000000000000).map (·.1) = some 5#4 ∧
      (runWord (configured 5#64) 0x620000000000000000).map (·.1) = some 0#4 := by decide
theorem witness_ErrorsWriteOnlyTheirFlag :
    (next? (exec .keywin (configured 5#64))).map (·.rspStatus) = some 5#4 ∧
      (next? (exec (.enc 0#4 0#16) (configured 5#64))).map (·.rspStatus) = some 1#4 := by decide
theorem witness_RetryReproducesTheError :
    exec .adv State.reset = .next (raiseErr .notConfigured State.reset) ∧
      (raiseErr .notConfigured State.reset).rspStatus ≠ 0x0#4 := ⟨rfl, by decide⟩
theorem witness_ErrfIsSticky :
    exec (.init 7#64) (configured 5#64) = .next (raiseErr .seedImmutable (configured 5#64)) ∧
      (raiseErr .seedImmutable (configured 5#64)).rspStatus ≠ 0x0#4 ∧
      (busyWith 0x100000000000000007#72).pins.rstN = true ∧
      (respondingTo PortIn.assertReset).pins.rstN = false := ⟨rfl, by decide⟩
theorem witness_OnlyInitWritesSeed :
    (∃ t, exec (.init 5#64) State.reset = .next t ∧ t.seed ≠ State.reset.seed) ∧
      ((∃ t, step (busyWith 0x100000000000000007#72) = .next t) ∧
        (busyWith 0x100000000000000007#72).cfg = true ∧
        (busyWith 0x100000000000000007#72).pins.rstN = true) ∧
      (respondingTo PortIn.assertReset).pins.rstN = false :=
  ⟨⟨_, rfl, by decide⟩, ⟨⟨_, rfl⟩, by decide⟩, by decide⟩
/-- STATE is written by hardware reset and by a completing ADV. -/
theorem witness_WritersOfState :
    (∃ t, step { advanced with host := [PortIn.assertReset] } = .next t ∧ t.state ≠ advanced.state) ∧
      ∃ t, step (busyWith 0x300000000000000000#72) = .next t ∧
        t.state ≠ (busyWith 0x300000000000000000#72).state :=
  ⟨⟨_, rfl, by decide⟩, _, rfl, by decide⟩
theorem witness_WritersOfCfgAndAdv :
    (∃ t, step (respondingTo PortIn.assertReset) = .next t ∧
      t.cfg ≠ (respondingTo PortIn.assertReset).cfg) ∧
      ∃ t, step (State.reset.withFetchWord 72 0x100000000000000005) = .next t ∧
        t.cfg ≠ (State.reset.withFetchWord 72 0x100000000000000005).cfg :=
  ⟨⟨_, rfl, by decide⟩, _, rfl, by decide⟩
theorem witness_HardwareResetEdge :
    (respondingTo PortIn.assertReset).pins.rstN = false ∧ PortIn.quiet.rstN = true ∧
      (PortIn.offer 0#72).rstN = true ∧ (PortIn.offer 0#72).cmdValid = true := by decide
/-- One state for each branch of the process. -/
theorem witness_HandshakeFollowsTheProcess :
    (let s := { State.reset with host := [PortIn.offer 0#72] }
     s.pins.rstN = true ∧ s.phase = .idle ∧ s.pins.cmdValid = true) ∧
    (State.reset.pins.rstN = true ∧ State.reset.phase = .idle ∧ State.reset.pins.cmdValid = false) ∧
    (let s := { busyWith 0#72 with remaining := 1 }
     s.pins.rstN = true ∧ s.phase = .busy ∧ 0 < s.remaining) ∧
    (let s := busyWith 0#72
     s.pins.rstN = true ∧ s.phase = .busy ∧ s.remaining = 0 ∧
       accepted s.pins s = false ∧ accepted (PortIn.offer 0#72) s = false ∧
       (PortIn.offer 0#72).rstN = true ∧ (PortIn.offer 0#72).rspReady = s.pins.rspReady) ∧
    (let s := respondingTo PortIn.take
     s.pins.rstN = true ∧ s.phase = .resp ∧ s.pins.rspReady = true) ∧
    (let s := respondingTo PortIn.quiet
     s.pins.rstN = true ∧ s.phase = .resp ∧ s.pins.rspReady = false) := by decide
theorem witness_StepRunsTheDecodedCommand :
    (Instr.enc 2#4 0x4869#16).wellFormed = true ∧
      decode (busyWith 0x620000000000004869#72).cw = .enc 2#4 0x4869#16 ∧
      (busyWith 0x620000000000004869#72).pins.rstN = true ∧
      (busyWith 0x620000000000004869#72).phase = .busy ∧
      (busyWith 0x620000000000004869#72).remaining = 0 := by decide
theorem witness_ResponseHeldUntilTaken :
    (respondingTo PortIn.quiet).phase = .resp ∧
      ∀ p ∈ (respondingTo PortIn.quiet).host.take 3, p.rstN = true ∧ p.rspReady = false := by decide
theorem witness_CommandAnswersAfterItsLatency :
    let s := { State.reset with host := [PortIn.offer 0x100000000000000005#72] }
    accepted s.pins s = true ∧
      ∀ p ∈ s.host.take (Config.lat s.pins.commandWord + 1), p.rstN = true := by
  refine ⟨by decide, fun p hp => ?_⟩
  rw [List.mem_singleton.1 (List.mem_of_mem_take hp)]
  rfl
/-- A run that accepts INIT and has its response taken. -/
theorem witness_EdgeRunsAreCommandRuns :
    let cw := 0x100000000000000005#72
    let s := { State.reset with host := visit cw 0 0 }
    s.phase = .idle ∧ (∀ p ∈ s.host, p.rstN = true) ∧
      ∃ tr t, runEdges (Config.lat cw + 2) s = .next (tr, t) ∧ t.phase = .idle ∧
        tr.words = [cw] ∧ tr.responses = [⟨0x0#4, 0x0#64⟩] := by
  intro cw s
  have hhost : s.host = PortIn.offer cw ::
      (List.replicate (Config.lat cw) PortIn.quiet ++ [PortIn.take]) := rfl
  refine ⟨rfl, fun p hp => ?_, ?_⟩
  · rw [hhost, List.mem_cons, List.mem_append, List.mem_singleton] at hp
    rcases hp with rfl | hp | rfl
    · rfl
    · rw [List.eq_of_mem_replicate hp]; rfl
    · rfl
  · let a : State :=
      { State.reset with
        cw := cw, phase := .busy, remaining := Config.extraEdges cw
        host := List.replicate (Config.extraEdges cw + 1) PortIn.quiet ++ [PortIn.take] }
    have word : (PortIn.offer cw).commandWord = cw := by decide
    have accepts : step s = .next a := by
      show Host.Outcome.next (State.nextPins (accept (PortIn.offer cw).commandWord s)) = _
      rw [word]
      rfl
    have init : exec (decode a.cw) a = .next (respond .ok 0x0#64
        { a with seed := 5#64, state := Config.G, cfg := true, adv := false }) := by
      rw [show decode a.cw = .init 5#64 by decide]
      rfl
    have waits := runEdges_busy_quiet (s := a) rfl rfl init
    have run := runEdges_append (runEdges_cons accepts waits) (n := 1) rfl
    exact ⟨_, _, run, rfl, congrArg ([·]) word, rfl⟩
theorem witness_SessionDeliversEveryResponse :
    let visits := [(0x100000000000000005#72, 1, 0), (0x620000000000004869#72, 0, 2)]
    let s := { State.reset with host := session visits ++ [PortIn.quiet] }
    s.phase = .idle ∧ s.host = session visits ++ [PortIn.quiet] := ⟨rfl, rfl⟩
theorem witness_ReadyAndValidReadPhaseAndResetOnly :
    (PortIn.offer 0#72).rstN = PortIn.take.rstN ∧
      State.reset.phase = ({ advanced with phase := .idle } : State).phase ∧
      PortIn.assertReset.rstN = false ∧ PortIn.quiet.rstN = true := by decide
theorem witness_StateStaysInRange :
    (respondingTo PortIn.assertReset).pins.rstN = false ∧ advanced.StateInRange ∧
      (busyWith 0x300000000000000000#72).StateInRange ∧
      ∃ t, step (busyWith 0x300000000000000000#72) = .next t :=
  ⟨by decide, by decide, by decide, _, rfl⟩
theorem witness_UnconfiguredCoreStaysFresh :
    State.reset.UnconfiguredIsFresh ∧ State.reset.cfg = false ∧
      (∃ t, step State.reset = .next t) ∧ (respondingTo PortIn.assertReset).pins.rstN = false :=
  ⟨by decide, rfl, ⟨_, rfl⟩, rfl⟩
theorem witness_ResponseRegistersStayLegal :
    (raiseErr .noAdvanceYet (busyWith 0x620000000000004869#72)).ResponseLegal ∧
      ∃ t, step (raiseErr .noAdvanceYet (busyWith 0x620000000000004869#72)) = .next t :=
  ⟨by decide, _, rfl⟩
theorem witness_BusyStaysWithinLatency :
    (busyWith 0#72).phase = .busy ∧ (busyWith 0#72).BusyWithinLatency ∧
      ∃ t, step (busyWith 0#72) = .next t :=
  ⟨rfl, fun _ => Nat.succ_pos _, _, rfl⟩
theorem witness_DecInvertsEnc :
    (configured 5#64).cfg = true ∧
      ({ configured 5#64 with adv := true, errf := 1#5 } : State).state = (configured 5#64).state ∧
      ({ configured 5#64 with adv := true, errf := 1#5 } : State).seed = (configured 5#64).seed := by
  decide
theorem witness_SequenceRoundTrip :
    (configured 5#64).cfg = true ∧ (configured 5#64).state = Config.G := by decide
theorem witness_RedecryptRecoversTheBuffer :
    (configured 5#64).cfg = true ∧ (configured 5#64).state = Config.G ∧
      [0x48#8, 0x69#8, 0x21#8, 0x21#8].length % 2 = 0 := by decide
theorem witness_OddBuffersIssueNoCommand :
    [0x6F#8].length % 2 = 1 ∧ [0x48#8, 0x69#8].length % 2 = 0 ∧ [0x48#8, 0x69#8] ≠ [] ∧
      State.reset.cfg = false := by decide
theorem witness_KeystreamCountsAdvances :
    (∀ i ∈ [Instr.adv, .status, .enc 2#4 0#16, .init 7#64, .dec 3#4 0#16],
      i.wellFormed = true ∧ i ≠ .reset) ∧
      advanced.cfg = true ∧ advanced.state = keystream advanced.seed 1 := by decide
theorem witness_DegenerateSeeds :
    (0#64).toNat % (Config.P.toNat - 1) = 0 ∧
      (Config.P - 1#64).toNat % (Config.P.toNat - 1) = 0 ∧
      (Config.P - 2#64).toNat % (Config.P.toNat - 1) = Config.P.toNat - 2 ∧
      Config.P.toNat = (1#64).toNat + (Config.P.toNat - 1) := by decide
/-- Two cores with different seeds that a host without PUBKEY's response tells apart no further than their windows. -/
theorem witness_KeyMaterialStaysInside :
    let s := { advanced with state := 1#64, seed := 0#64 }
    let s' := { advanced with state := 1#64, seed := 7#64 }
    s'.cfg = s.cfg ∧ s'.adv = s.adv ∧ s'.errf = s.errf ∧ s'.seed ≠ s.seed ∧
      keyWindow s' = keyWindow s ∧
      (exactPower s'.state s'.seed).extractLsb' 0 16 = (exactPower s.state s.seed).extractLsb' 0 16 := by
  decide
/-- And two that agree on SEED but not on STATE, for PUBKEY. -/
theorem witness_KeyMaterialStaysInside_pubkey :
    advanced.cfg = ({ advanced with state := 1#64 } : State).cfg ∧
      advanced.seed = ({ advanced with state := 1#64 } : State).seed := by decide
theorem witness_SeedIsUnobservableBeforeInit : State.reset.cfg = false := by decide
theorem witness_CapturedWordIsDeadUnlessBusy : State.reset.phase ≠ .busy := by decide
theorem witness_InstancesAreIsolated : (0 : Fin 2) ≠ 1 := by decide
theorem witness_StrayAdvanceStillDecrypts :
    (configured 5#64).cfg = true ∧ (configured 5#64).state = Config.G := by decide
/-- A completing edge, an accepting one and a consuming one, and two states that differ outside R20's registers only. -/
theorem witness_AtomicityIsTheOnlySynchronisation :
    ((∃ t, step (busyWith 0x300000000000000000#72) = .next t ∧
        t.registers ≠ (busyWith 0x300000000000000000#72).registers) ∧
      (busyWith 0x300000000000000000#72).pins.rstN = true) ∧
    (let s := { State.reset with host := [PortIn.offer 0#72] }
     s.pins.rstN = true ∧ accepted s.pins s = true ∧ ∃ t, step s = .next t) ∧
    (let s := respondingTo PortIn.take
     s.pins.rstN = true ∧ consumed s.pins s = true ∧ ∃ t, step s = .next t) ∧
    (respondingTo PortIn.quiet).registers = (busyWith 0#72).registers :=
  ⟨⟨⟨_, rfl, by decide⟩, by decide⟩, ⟨by decide, by decide, _, rfl⟩, ⟨by decide, by decide, _, rfl⟩, rfl⟩
theorem witness_CleanErrfMeansEveryResponseOk :
    ∃ rs t, runCommands [0x100000000000000005#72, 0x620000000000004869#72] State.reset =
      .next (rs, t) ∧ t.NoErrorRecorded ∧ rs.length = 2 := ⟨_, _, rfl, by decide, rfl⟩

end Sys2Proof.Tests
end

section
/-! PROOFS. What `Execute` and one edge do to the registers, said once for the claims about who writes what. -/

namespace Sys2Proof.Machine

@[simp] theorem respond_response (st : Status) (d : Word) (s : State) :
    (respond st d s).response = ⟨st.code, d⟩ := rfl
@[simp] theorem raiseErr_response (e : Status) (s : State) :
    (raiseErr e s).response = ⟨e.code, 0x0#64⟩ := rfl

theorem whenConfigured_response_congr {body : State → State} {s s' : State}
    (hcfg : s'.cfg = s.cfg) (hbody : (body s').response = (body s).response) :
    (whenConfigured body s').response = (whenConfigured body s).response := by
  cases h : s.cfg
  · rw [whenConfigured_of_not_cfg _ h, whenConfigured_of_not_cfg _ (hcfg.trans h),
      raiseErr_response, raiseErr_response]
  · rwa [whenConfigured_of_cfg _ h, whenConfigured_of_cfg _ (hcfg.trans h)]

/-- `Execute` is total (R195). -/
theorem exec_answers (i : Instr) (s : State) : ∃ t, exec i s = .next t := by
  cases i <;> exact ⟨_, rfl⟩

/-- The whole of R202: the commands that need a seed are refused without one. -/
theorem exec_of_needsSeed {i : Instr} {s : State} (hi : needsSeed i = true) (hc : s.cfg = false) :
    exec i s = .next (raiseErr .notConfigured s) := by
  cases i with
  | status | init | reserved => cases hi
  | reset | adv | keywin | pubkey | enc | dec =>
    exact congrArg Host.Outcome.next (whenConfigured_of_not_cfg _ hc)

/-- The commands that R202 leaves out. -/
theorem eq_of_not_needsSeed {i : Instr} (hi : needsSeed i = false) :
    i = .status ∨ (∃ seed, i = .init seed) ∨ ∃ op, i = .reserved op := by
  cases i <;> simp_all [needsSeed]

theorem exec_init_of_not_cfg (seed : Word) {s : State} (hc : s.cfg = false) :
    exec (.init seed) s = .next (respond .ok 0x0#64
      { s with seed := seed, state := Config.G, cfg := true, adv := false }) := by
  simp [exec, execInit, hc]

/-- A command answers OK while `CFG = 0` only if it is STATUS or INIT (R190, R202). -/
theorem exec_ok_of_not_cfg_iff {i : Instr} {s t : State} (hc : s.cfg = false)
    (h : exec i s = .next t) : t.rspStatus = 0x0#4 ↔ i = .status ∨ ∃ seed, i = .init seed := by
  cases hi : needsSeed i
  · rcases eq_of_not_needsSeed hi with rfl | ⟨seed, rfl⟩ | ⟨op, rfl⟩
    · cases h; simp [Status.code]
    · rw [exec_init_of_not_cfg seed hc] at h
      cases h; simp [Status.code]
    · cases h; simp [Status.code]
  · rw [exec_of_needsSeed hi hc] at h
    cases h
    refine ⟨fun hok => absurd hok (by simp [Status.code]), ?_⟩
    rintro (rfl | ⟨seed, rfl⟩) <;> cases hi

/-- Before INIT a command is INIT's construction or writes no register but ERRF (R120, R202). -/
theorem exec_effect_of_not_cfg {i : Instr} {s t : State} (hc : s.cfg = false)
    (h : exec i s = .next t) :
    (∃ seed, i = .init seed ∧ t = respond .ok 0x0#64
      { s with seed := seed, state := Config.G, cfg := true, adv := false }) ∨
    ((∀ seed, i ≠ .init seed) ∧ t.registers = { s.registers with errf := t.errf }) := by
  cases hi : needsSeed i
  · rcases eq_of_not_needsSeed hi with rfl | ⟨seed, rfl⟩ | ⟨op, rfl⟩
    · cases h; exact .inr ⟨nofun, rfl⟩
    · rw [exec_init_of_not_cfg seed hc] at h
      cases h; exact .inl ⟨seed, rfl, rfl⟩
    · cases h; exact .inr ⟨nofun, rfl⟩
  · rw [exec_of_needsSeed hi hc] at h
    cases h
    exact .inr ⟨fun seed e => by simp [e, needsSeed] at hi, rfl⟩

/-- After INIT a command advances, or is RESET, or writes no register but ERRF (R125, R130, R160). -/
theorem exec_effect_of_cfg {i : Instr} {s t : State} (hc : s.cfg = true)
    (h : exec i s = .next t) :
    (advances i = true ∧ ∃ d, t = respond .ok d (advance s)) ∨
    (i = .reset ∧ t = respond .ok 0x0#64 { s with state := Config.G }) ∨
    (advances i = false ∧ t.registers = { s.registers with errf := t.errf }) := by
  have cipher : ∀ len block, cipherCommand len block s = t →
      (blockLengthOk len = true ∧ ∃ d, t = respond .ok d (advance s)) ∨
      (blockLengthOk len = false ∧ t.registers = { s.registers with errf := t.errf }) := by
    rintro len block rfl
    rcases cipherCommand_cases len block s with ⟨h0, -⟩ | ⟨-, hl, e⟩ | ⟨-, hl, e⟩
    · exact absurd hc (by simp [h0])
    · exact .inr ⟨by simpa [← blockLengthOk_iff] using hl, by rw [e]; rfl⟩
    · exact .inl ⟨(blockLengthOk_iff len).2 hl, _, e⟩
  cases i with
  | status | reserved op => cases h; exact .inr (.inr ⟨rfl, rfl⟩)
  | init seed =>
    simp only [exec, execInit, hc, if_true] at h
    cases h; exact .inr (.inr ⟨rfl, rfl⟩)
  | reset =>
    cases h; exact .inr (.inl ⟨rfl, whenConfigured_of_cfg _ hc⟩)
  | adv =>
    cases h; exact .inl ⟨rfl, _, whenConfigured_of_cfg _ hc⟩
  | keywin =>
    cases h
    rw [whenConfigured_of_cfg _ hc]
    cases s.adv <;> exact .inr (.inr ⟨rfl, rfl⟩)
  | pubkey =>
    cases h
    rw [whenConfigured_of_cfg _ hc]
    exact .inr (.inr ⟨rfl, rfl⟩)
  | enc len block | dec len block =>
    exact (cipher len block (Host.Outcome.next.inj h)).imp_right .inr

/-! ### ERRF: every command ORs a mask into it (R25). -/

theorem errf_and_or_self (x m : BitVec 5) : x &&& (x ||| m) = x := by
  ext i
  simpa using Or.inl

theorem errBit_getLsbD {e : Status} (he : e ≠ .ok) :
    e.errBit.getLsbD (e.code.toNat - 1) = true := by
  cases e with
  | ok => exact absurd rfl he
  | invalidBlockSize | notConfigured | seedImmutable | illegalCommand | noAdvanceYet => decide

/-- A command reports an error and sets its flag, or answers OK and leaves ERRF (R25, R200, R208). -/
theorem exec_errf_cases {i : Instr} {s t : State} (h : exec i s = .next t) :
    (∃ e, e ≠ Status.ok ∧ t.rspStatus = e.code ∧ t.errf = s.errf ||| e.errBit) ∨
    (t.rspStatus = 0x0#4 ∧ t.errf = s.errf) := by
  rcases exec_cases h with ⟨e, he, rfl⟩ | ⟨_, rfl⟩ | ⟨_, -, -, rfl⟩ | ⟨-, -, rfl⟩ | ⟨-, _, rfl⟩
  · exact .inl ⟨e, he, rfl, rfl⟩
  · exact .inr ⟨rfl, rfl⟩
  · exact .inr ⟨rfl, rfl⟩
  · exact .inr ⟨rfl, rfl⟩
  · exact .inr ⟨rfl, rfl⟩

theorem exec_errf_sticky {i : Instr} {s t : State} (h : exec i s = .next t) :
    s.errf &&& t.errf = s.errf := by
  rcases exec_errf_cases h with ⟨e, -, -, he⟩ | ⟨-, he⟩
  · rw [he, errf_and_or_self]
  · rw [he, BitVec.and_self]

theorem exec_error_sets_flag {i : Instr} {s t : State} (h : exec i s = .next t)
    (herr : t.rspStatus ≠ 0x0#4) : t.errf.getLsbD (t.rspStatus.toNat - 1) = true := by
  rcases exec_errf_cases h with ⟨e, hne, hst, he⟩ | ⟨hst, -⟩
  · rw [he, hst, BitVec.getLsbD_or, errBit_getLsbD hne, Bool.or_true]
  · exact absurd hst herr

/-- One edge: hardware reset, or no change that the host can read, or the whole of the captured command (R65, R240). -/
theorem step_cases {s t : State} (h : step s = .next t) :
    (s.pins.rstN = false ∧ t = hardwareReset s.nextPins) ∨
    (s.pins.rstN = true ∧ t.registers = s.registers ∧ t.response = s.response) ∨
    (s.pins.rstN = true ∧ s.phase = .busy ∧ s.remaining = 0 ∧
      ∃ u, exec (decode s.cw) s = .next u ∧
        t = { u with phase := .resp, host := s.host.tail }) := by
  rcases edge_cases h with ⟨hr, rfl⟩ | ⟨hr, -, -, rfl⟩ | ⟨hr, hp, h0, v, hv, rfl⟩ |
    ⟨hr, -, -, rfl⟩ | ⟨hr, -, -, rfl⟩ | ⟨hr, rfl, -⟩
  · exact .inl ⟨hr, rfl⟩
  · exact .inr (.inl ⟨hr, rfl, rfl⟩)
  · obtain ⟨u, hu⟩ := exec_answers (decode s.cw) s
    obtain ⟨-, hcw, hrem, -⟩ := exec_keeps_port hu
    have hcarry := exec_carries_port hu s.phase s.cw s.remaining s.host.tail
    obtain rfl := Host.Outcome.next.inj (hv.symm.trans hcarry)
    exact .inr (.inr ⟨hr, hp, h0, u, hu, by rw [← hcw, ← hrem]⟩)
  · exact .inr (.inl ⟨hr, rfl, rfl⟩)
  · exact .inr (.inl ⟨hr, rfl, rfl⟩)
  · exact .inr (.inl ⟨hr, rfl, rfl⟩)

/-- Hardware reset acts at every edge with `rst_n = 0`, in any phase (R240). -/
theorem step_of_reset {s : State} (hr : s.pins.rstN = false) :
    step s = .next (hardwareReset s.nextPins) := by
  simp [step, edge, hr]

/-- The induction step of an invariant of the registers and the response:
hardware reset makes it and every command keeps it, so every edge keeps it. -/
theorem step_preserves {I : Registers → Response → Prop}
    (hreset : ∀ s, I (hardwareReset s).registers (hardwareReset s).response)
    (hexec : ∀ i s t, I s.registers s.response → exec i s = .next t → I t.registers t.response)
    {s t : State} (hI : I s.registers s.response) (h : step s = .next t) :
    I t.registers t.response := by
  rcases step_cases h with ⟨-, rfl⟩ | ⟨-, hreg, hrsp⟩ | ⟨-, -, -, u, hu, rfl⟩
  · exact hreset _
  · rwa [hreg, hrsp]
  · exact hexec (decode s.cw) s u hI hu

theorem registers_eq_iff {s t : State} : t.registers = s.registers ↔
    t.state = s.state ∧ t.seed = s.seed ∧ t.cfg = s.cfg ∧ t.adv = s.adv ∧ t.errf = s.errf := by
  simp [State.registers]

end Sys2Proof.Machine
end

section
/-! PROOFS. `power_mod` is the exact power modulo the prime `P` (spec/40_modexp.md R100–R107). -/

namespace Sys2Proof.Machine

/-- `P` is the Mersenne prime `M_61`, by the Lucas–Lehmer test. -/
theorem prime_P : Config.P.toNat.Prime := by
  have h : (mersenne 61).Prime := lucas_lehmer_sufficiency 61 (by norm_num) (by norm_num)
  exact h

/-- Two steps of R103's loop in one power: the square of `x`, and `x` once more where the bit is 1. -/
theorem mul_sq_pow_half (r x e : Nat) :
    (if e % 2 = 1 then r * x else r) * (x * x) ^ (e / 2) = r * x ^ e := by
  have hx : (x * x) ^ (e / 2) = x ^ (2 * (e / 2)) := by rw [pow_mul, sq]
  rcases Nat.mod_two_eq_zero_or_one e with h | h
  · rw [hx, if_neg (by omega), show 2 * (e / 2) = e by omega]
  · rw [hx, if_pos h, mul_assoc, ← pow_succ', show 2 * (e / 2) + 1 = e by omega]

/-- The loop's invariant: the accumulator times the power still to come (R103). -/
theorem powerModBits_eq {bits e r : Nat} (x : Nat) (he : e < 2 ^ bits) (hr : r < Config.P.toNat) :
    powerModBits bits e r x = r * x ^ e % Config.P.toNat := by
  induction bits generalizing e r x with
  | zero =>
    obtain rfl : e = 0 := by simpa using he
    simp [powerModBits, Nat.mod_eq_of_lt hr]
  | succ bits ih =>
    have hr' : (if e % 2 = 1 then r * x % Config.P.toNat else r) < Config.P.toNat := by
      split
      · exact Nat.mod_lt _ prime_P.pos
      · exact hr
    have hacc : (if e % 2 = 1 then r * x % Config.P.toNat else r) ≡
        (if e % 2 = 1 then r * x else r) [MOD Config.P.toNat] := by
      split
      · exact Nat.mod_modEq _ _
      · rfl
    rw [powerModBits, ih _ (by omega) hr', ← mul_sq_pow_half r x e]
    exact hacc.mul ((Nat.mod_modEq _ _).pow _)

/-- `power_mod` is the exact power, for every base (R100, R101, R104). -/
theorem powerMod_eq_exactPower (b e : Word) : powerMod b e = exactPower b e := by
  have he := e.isLt
  rw [powerMod, powerModBits_eq _ (by omega) prime_P.one_lt, one_mul, exactPower]

/-- The exact power as a number: a residue fits a word (R102, R105). -/
theorem powerMod_toNat (b e : Word) :
    (powerMod b e).toNat = b.toNat ^ (e.toNat + 1) % Config.P.toNat := by
  have hlt : b.toNat ^ (e.toNat + 1) % Config.P.toNat < 2 ^ 64 :=
    (Nat.mod_lt _ prime_P.pos).trans (by decide)
  rw [powerMod_eq_exactPower, exactPower, BitVec.toNat_ofNat, Nat.mod_eq_of_lt hlt]

theorem G_in_range : 1 ≤ Config.G.toNat ∧ Config.G.toNat ≤ Config.P.toNat - 1 := by decide

theorem powerMod_lt_P (b e : Word) : (powerMod b e).toNat < Config.P.toNat := by
  rw [powerMod_toNat]
  exact Nat.mod_lt _ prime_P.pos

/-- A power of a nonzero residue of a prime is nonzero (R107). -/
theorem powerMod_pos {b : Word} (e : Word) (hpos : 1 ≤ b.toNat)
    (hlt : b.toNat < Config.P.toNat) : 1 ≤ (powerMod b e).toNat := by
  rw [powerMod_toNat, Nat.one_le_iff_ne_zero]
  intro h
  have hdvd : Config.P.toNat ∣ b.toNat := prime_P.dvd_of_dvd_pow (Nat.dvd_of_mod_eq_zero h)
  exact absurd (Nat.le_of_dvd hpos hdvd) (by omega)

/-- Below `2 ^ 61` the three bits above are zero (R32, R105). -/
theorem extractLsb'_61_of_lt_P {w : Word} (h : w.toNat < Config.P.toNat) :
    w.extractLsb' 61 3 = 0b000#3 := by
  apply BitVec.eq_of_toNat_eq
  have hP : Config.P.toNat = 2 ^ 61 - 1 := rfl
  simp only [BitVec.extractLsb'_toNat, Nat.shiftRight_eq_div_pow, BitVec.toNat_ofNat]
  omega

end Sys2Proof.Machine
end

section
/-! PROOFS. The statements about the registers and what each command does to them. -/

namespace Sys2Proof.Machine

/-- The successor of a state in range is in range, whatever the command (R32, R107). -/
theorem exec_keeps_stateInRange {i : Instr} {s t : State} (hs : s.StateInRange)
    (h : exec i s = .next t) : t.StateInRange := by
  obtain ⟨hpos, hle⟩ := hs
  have hP := prime_P.pos
  rcases exec_cases h with ⟨_, -, rfl⟩ | ⟨_, rfl⟩ | ⟨_, -, -, rfl⟩ | ⟨-, -, rfl⟩ | ⟨-, _, rfl⟩
  · exact ⟨hpos, hle⟩
  · exact ⟨hpos, hle⟩
  · exact G_in_range
  · exact G_in_range
  · exact ⟨powerMod_pos s.seed hpos (by omega), Nat.le_sub_one_of_lt (powerMod_lt_P _ _)⟩

/-- Settles O41: hardware reset writes G, and the other writers keep the range. -/
theorem stateStaysInRange : Obligations.StateStaysInRange := by
  refine ⟨fun s hr => ⟨_, step_of_reset hr, G_in_range⟩, fun s t hs h => ?_, fun s hs => ?_⟩
  · exact step_preserves (I := fun r _ => 1 ≤ r.state.toNat ∧ r.state.toNat ≤ Config.P.toNat - 1)
      (fun _ => G_in_range) (fun _ _ _ => exec_keeps_stateInRange) hs h
  · obtain ⟨hpos, hle⟩ := hs
    have hP := prime_P.pos
    exact ⟨extractLsb'_61_of_lt_P (by omega), fun h0 => by simp [h0] at hpos⟩

theorem exec_keeps_unconfiguredIsFresh {i : Instr} {s t : State} (hs : s.UnconfiguredIsFresh)
    (h : exec i s = .next t) : t.UnconfiguredIsFresh := by
  rcases exec_cases h with ⟨_, -, rfl⟩ | ⟨_, rfl⟩ | ⟨_, -, -, rfl⟩ | ⟨-, hc, rfl⟩ | ⟨hc, _, rfl⟩
  · exact hs
  · exact hs
  · exact nofun
  · exact fun h0 => absurd (hc.symm.trans h0) nofun
  · exact fun h0 => absurd (hc.symm.trans h0) nofun

/-- Settles O42: no command writes a register but ERRF before INIT sets CFG. -/
theorem unconfiguredCoreStaysFresh : Obligations.UnconfiguredCoreStaysFresh := by
  refine ⟨fun s hr => ⟨_, step_of_reset hr, fun _ => ⟨rfl, rfl, rfl⟩⟩, fun s t hs h => ?_⟩
  exact step_preserves
    (I := fun r _ => r.cfg = false → r.adv = false ∧ r.state = Config.G ∧ r.seed = 0x0#64)
    (fun _ _ => ⟨rfl, rfl, rfl⟩) (fun _ _ _ => exec_keeps_unconfiguredIsFresh) hs h

/-- The layout of R30: the four fields of the STATUS word from bit 0 up. -/
theorem statusWord_getLsbD (s : State) (i : Nat) :
    s.statusWord.getLsbD i =
      (if i = 0 then s.cfg else if i = 1 then s.adv
       else if 8 ≤ i ∧ i ≤ 12 then s.errf.getLsbD (i - 8) else false) := by
  simp only [State.statusWord, BitVec.getLsbD_setWidth, BitVec.getLsbD_append, BitVec.getLsbD_ofBool]
  match i with
  | 0 => simp
  | 1 => simp
  | j + 2 =>
    rcases lt_or_ge j 6 with hj | hj
    · simp [hj, show ¬ 8 ≤ j + 2 by omega]
    · rcases lt_or_ge j 11 with hj' | hj'
      · simp [show ¬ j < 6 by omega, show j + 2 < 64 by omega, show 8 ≤ j + 2 by omega,
          show j + 2 ≤ 12 by omega]
      · simp [s.errf.getLsbD_of_ge (j - 6) (by omega), show ¬ j + 2 ≤ 12 by omega]

/-- Settles O21, from the layout of the STATUS word and the commands that R202 leaves out. -/
theorem statusWordBitByBit : Obligations.StatusWordBitByBit := by
  refine ⟨fun len data => by simp [decode], by decide,
    fun s => ⟨s.statusWord, rfl, statusWord_getLsbD s⟩, rfl, fun i s hc => ?_⟩
  obtain ⟨t, ht⟩ := exec_answers i s
  exact ⟨t, ht, exec_ok_of_not_cfg_iff hc ht⟩

/-- Settles O27: every command ORs a mask into ERRF. -/
theorem errfIsSticky : Obligations.ErrfIsSticky := by
  refine ⟨fun i s t h => ⟨exec_errf_sticky h, exec_error_sets_flag h⟩, fun s t h hr => ?_,
    fun s hr => ⟨_, step_of_reset hr, rfl⟩⟩
  rcases step_cases h with ⟨hr', -⟩ | ⟨-, hreg, -⟩ | ⟨-, -, -, u, hu, rfl⟩
  · exact absurd (hr.symm.trans hr') nofun
  · obtain ⟨-, -, -, -, herrf⟩ := registers_eq_iff.1 hreg
    rw [herrf, BitVec.and_self]
  · exact (exec_errf_sticky hu :)

/-- SEED and CFG are written by INIT's construction and by no other command (R22, R23, R120). -/
theorem exec_seed_cfg_cases {i : Instr} {s t : State} (h : exec i s = .next t) :
    (t.seed = s.seed ∧ t.cfg = s.cfg) ∨ (s.cfg = false ∧ t.cfg = true ∧ i = .init t.seed) := by
  rcases exec_cases h with ⟨_, -, rfl⟩ | ⟨_, rfl⟩ | ⟨_, rfl, hc, rfl⟩ | ⟨-, -, rfl⟩ | ⟨-, _, rfl⟩
  · exact .inl ⟨rfl, rfl⟩
  · exact .inl ⟨rfl, rfl⟩
  · exact .inr ⟨hc, rfl, rfl⟩
  · exact .inl ⟨rfl, rfl⟩
  · exact .inl ⟨rfl, rfl⟩

/-- Settles O28: once `CFG = 1` INIT is refused, and hardware reset clears CFG. -/
theorem onlyInitWritesSeed : Obligations.OnlyInitWritesSeed := by
  refine ⟨fun i s t h hne => ?_, fun s t h hc hr => ?_, fun s seed hr => ?_⟩
  · rcases exec_seed_cfg_cases h with ⟨hseed, -⟩ | ⟨hc, -, hi⟩
    · exact absurd hseed hne
    · exact ⟨hc, hi⟩
  · rcases step_cases h with ⟨hr', -⟩ | ⟨-, hreg, -⟩ | ⟨-, -, -, u, hu, rfl⟩
    · exact absurd (hr.symm.trans hr') nofun
    · obtain ⟨-, hseed, hcfg, -, -⟩ := registers_eq_iff.1 hreg
      exact ⟨hseed, hcfg.trans hc⟩
    · rcases exec_seed_cfg_cases hu with ⟨hseed, hcfg⟩ | ⟨hc', -, -⟩
      · exact ⟨hseed, hcfg.trans hc⟩
      · exact absurd (hc.symm.trans hc') nofun
  · exact ⟨_, _, step_of_reset hr, exec_init_of_not_cfg seed rfl, rfl, rfl⟩

/-- STATE is written with G by INIT and RESET, and with its power by an advance (R21). -/
theorem exec_state_cases {i : Instr} {s t : State} (h : exec i s = .next t) :
    t.state = s.state ∨
    (t.state = Config.G ∧ (i = .reset ∨ i = .init t.seed)) ∨
    (t.state = powerMod s.state s.seed ∧ s.cfg = true ∧ advances i = true) := by
  cases hc : s.cfg
  · rcases exec_effect_of_not_cfg hc h with ⟨seed, rfl, rfl⟩ | ⟨-, hreg⟩
    · exact .inr (.inl ⟨rfl, .inr rfl⟩)
    · exact .inl (congrArg Registers.state hreg)
  · rcases exec_effect_of_cfg hc h with ⟨hi, d, rfl⟩ | ⟨rfl, rfl⟩ | ⟨-, hreg⟩
    · exact .inr (.inr ⟨rfl, rfl, hi⟩)
    · exact .inr (.inl ⟨rfl, .inl rfl⟩)
    · exact .inl (congrArg Registers.state hreg)

/-- Settles O29: STATE changes at hardware reset and at the completing edge of a command that writes it. -/
theorem writersOfState : Obligations.WritersOfState := by
  intro s t h hne
  rcases step_cases h with ⟨hr, rfl⟩ | ⟨-, hreg, -⟩ | ⟨hr, hp, h0, u, hu, rfl⟩
  · exact .inl ⟨hr, rfl⟩
  · exact absurd (congrArg Registers.state hreg) hne
  · refine .inr ⟨hr, hp, h0, ?_⟩
    rcases exec_state_cases hu with heq | ⟨hG, hi⟩ | ⟨hpow, hc, hi⟩
    · exact absurd heq hne
    · exact .inl ⟨hG, hi⟩
    · exact .inr ⟨hpow.trans (powerMod_eq_exactPower _ _), hc, hi⟩

theorem mnemonic_eq_INIT_iff (i : Instr) : i.mnemonic = "INIT" ↔ ∃ seed, i = .init seed := by
  cases i <;> simp [Instr.mnemonic]

/-- ADV is set by an advance, cleared by INIT's construction, and kept otherwise (R24, R126). -/
theorem exec_adv {i : Instr} {s t : State} (h : exec i s = .next t) :
    t.adv =
      (if s.cfg = true then (if advances i = true then true else s.adv)
       else if i.mnemonic = "INIT" then false else s.adv) := by
  cases hc : s.cfg
  · rcases exec_effect_of_not_cfg hc h with ⟨seed, rfl, rfl⟩ | ⟨hi, hreg⟩
    · rfl
    · have hadv : t.adv = s.adv := congrArg Registers.adv hreg
      simp [mnemonic_eq_INIT_iff, hi, hadv]
  · rcases exec_effect_of_cfg hc h with ⟨hi, d, rfl⟩ | ⟨rfl, rfl⟩ | ⟨hi, hreg⟩
    · simp [hi]
    · rfl
    · have hadv : t.adv = s.adv := congrArg Registers.adv hreg
      simp [hi, hadv]

/-- Settles O30, from INIT as the one writer of CFG and the effect of a command on ADV. -/
theorem writersOfCfgAndAdv : Obligations.WritersOfCfgAndAdv := by
  refine ⟨fun s t h hne => ?_, fun i s => ?_⟩
  · rcases step_cases h with ⟨hr, rfl⟩ | ⟨-, hreg, -⟩ | ⟨-, hp, h0, u, hu, rfl⟩
    · exact .inl ⟨hr, rfl⟩
    · exact absurd (congrArg Registers.cfg hreg) hne
    · rcases exec_seed_cfg_cases hu with ⟨-, hcfg⟩ | ⟨-, hcfg, hi⟩
      · exact absurd hcfg hne
      · exact .inr ⟨hcfg, hp, h0, hi⟩
  · obtain ⟨t, ht⟩ := exec_answers i s
    exact ⟨t, ht, exec_adv ht⟩

/-- A cipher command reveals only the window after its advance (R160, R161). -/
theorem cipherCommand_response_congr (len : BitVec 4) (block : Block) {s s' : State}
    (hcfg : s'.cfg = s.cfg) (hwin : keyWindow (advance s') = keyWindow (advance s)) :
    (cipherCommand len block s').response = (cipherCommand len block s).response := by
  refine whenConfigured_response_congr hcfg ?_
  cases blockLengthOk len
  · simp
  · simp [cipherStep, hwin]

/-- Settles O53: the responses of the commands read CFG, ADV, ERRF and the two windows, PUBKEY's reads SEED. -/
theorem keyMaterialStaysInside : Obligations.KeyMaterialStaysInside := by
  intro i s s' hcfg hadv herrf
  refine ⟨fun hi hnow hnext => ?_, fun hi hseed => ?_⟩
  · rw [← powerMod_eq_exactPower, ← powerMod_eq_exactPower] at hnext
    cases i with
    | pubkey => exact absurd rfl hi
    | status =>
      refine ⟨_, _, rfl, rfl, ?_⟩
      rw [respond_response, respond_response, State.statusWord, hcfg, hadv, herrf, State.statusWord]
    | init seed =>
      refine ⟨_, _, rfl, rfl, ?_⟩
      rw [hcfg]
      cases s.cfg <;> simp
    | reset | adv => exact ⟨_, _, rfl, rfl, whenConfigured_response_congr hcfg (by simp)⟩
    | keywin =>
      refine ⟨_, _, rfl, rfl, whenConfigured_response_congr hcfg ?_⟩
      rw [hadv, hnow]
      cases s.adv <;> simp
    | enc len block | dec len block =>
      exact ⟨_, _, rfl, rfl, cipherCommand_response_congr len block hcfg hnext⟩
    | reserved op => exact ⟨_, _, rfl, rfl, by simp⟩
  · subst hi
    refine ⟨_, _, rfl, rfl, whenConfigured_response_congr hcfg ?_⟩
    simp [hseed]

/-- Settles O54: before INIT no command reads SEED, and INIT overwrites it. -/
theorem seedIsUnobservableBeforeInit : Obligations.SeedIsUnobservableBeforeInit := by
  intro i s x hc
  cases hi : needsSeed i
  · rcases eq_of_not_needsSeed hi with rfl | ⟨seed, rfl⟩ | ⟨op, rfl⟩
    · exact ⟨_, rfl, .inl ⟨rfl, hc⟩⟩
    · exact ⟨_, exec_init_of_not_cfg seed hc, .inr ⟨exec_init_of_not_cfg seed hc, rfl⟩⟩
    · exact ⟨_, rfl, .inl ⟨rfl, hc⟩⟩
  · exact ⟨_, exec_of_needsSeed hi hc, .inl ⟨exec_of_needsSeed hi hc, hc⟩⟩

/-- A command that leaves ERRF clear found it clear and answered OK (R25, R200). -/
theorem exec_clean {i : Instr} {s t : State} (h : exec i s = .next t)
    (ht : t.NoErrorRecorded) : s.NoErrorRecorded ∧ t.rspStatus = 0x0#4 := by
  have hsticky := exec_errf_sticky h
  refine ⟨by simpa [ht] using hsticky.symm, by_contra fun herr => ?_⟩
  have hflag := exec_error_sets_flag h herr
  simp [ht] at hflag

/-- A run in front of whose commands there is one more. -/
theorem runCommands_cons_inv {cw : CommandWord} {rest : List CommandWord} {s u : State}
    {rs : List Response} (h : runCommands (cw :: rest) s = .next (rs, u)) :
    ∃ t rs', transact cw s = .next t ∧ runCommands rest t = .next (rs', u) ∧
      rs = t.response :: rs' := by
  simp only [runCommands] at h
  split at h
  · split at h
    · cases h
      exact ⟨_, _, ‹_›, ‹_›, rfl⟩
    · cases h
    · cases h
  · cases h
  · cases h

/-- A run that leaves ERRF clear found it clear and answered OK throughout. -/
theorem runCommands_clean {words : List CommandWord} {s t : State} {rs : List Response}
    (h : runCommands words s = .next (rs, t)) (ht : t.NoErrorRecorded) :
    s.NoErrorRecorded ∧ ∀ r ∈ rs, r.status = 0x0#4 := by
  induction words generalizing s rs with
  | nil =>
    cases h
    exact ⟨ht, nofun⟩
  | cons cw rest ih =>
    obtain ⟨u, rs', hu, hrest, rfl⟩ := runCommands_cons_inv h
    obtain ⟨hclean, hall⟩ := ih hrest
    obtain ⟨hs, hok⟩ := exec_clean hu hclean
    exact ⟨hs, List.forall_mem_cons.2 ⟨hok, hall⟩⟩

/-- Settles O58: a flag once set stays, so a run that ends clean was clean at every response. -/
theorem cleanErrfMeansEveryResponseOk : Obligations.CleanErrfMeansEveryResponseOk :=
  fun _ _ _ _ h ht => (runCommands_clean h ht).2

/-- Settles O32: the values are the fields of `State.reset`. -/
theorem resetStateHoldsTheSpecValues : Obligations.ResetStateHoldsTheSpecValues := by
  unfold Obligations.ResetStateHoldsTheSpecValues
  decide

/-- Settles O45: nothing is BUSY, no error is reported, and STATE is G. -/
theorem invariantsHoldAtReset : Obligations.InvariantsHoldAtReset :=
  ⟨G_in_range, fun _ => ⟨rfl, rfl, rfl⟩, ⟨by decide, fun h => absurd rfl h⟩, nofun⟩

end Sys2Proof.Machine
end

section
/-! PROOFS. What `Execute` reads, what one edge without reset does to the handshake, and the encoder's round trip. -/

namespace Sys2Proof.Machine

/-- A command reads the registers of R20 alone: from equal ones it leaves equal ones and answers the same (R51). -/
theorem exec_registers_congr {i : Instr} {s s' t : State} (hreg : s'.registers = s.registers)
    (h : exec i s = .next t) :
    ∃ t', exec i s' = .next t' ∧ t'.registers = t.registers ∧ t'.response = t.response := by
  obtain ⟨_, _, cfg, adv, _, _, _, _, _, _, _⟩ := s
  obtain ⟨_, _, _, _, _, _, _, _, _, _, _⟩ := s'
  cases hreg
  cases i with
  | enc len block | dec len block =>
    cases hl : blockLengthOk len <;> cases cfg <;>
      simp [exec, execEnc, execDec, cipherCommand, whenConfigured, hl] at h ⊢ <;>
      subst h <;> exact ⟨rfl, rfl⟩
  | status | init | reset | adv | keywin | pubkey | reserved =>
    cases cfg <;> cases adv <;> cases h <;> exact ⟨_, rfl, rfl, rfl⟩

/-! ### One edge -/

theorem accepted_iff (p : PortIn) (s : State) :
    accepted p s = true ↔ p.rstN = true ∧ p.cmdValid = true ∧ s.phase = .idle := by
  simp [accepted, cmdReady, and_left_comm]

theorem consumed_iff (p : PortIn) (s : State) :
    consumed p s = true ↔ p.rstN = true ∧ p.rspReady = true ∧ s.phase = .resp := by
  simp [consumed, rspValid, and_left_comm]

/-- Only IDLE accepts (R60). -/
theorem accepted_eq_false {s : State} (p : PortIn) (hp : s.phase ≠ .idle) :
    accepted p s = false := by
  simp [← Bool.not_eq_true, accepted_iff, hp]

/-- Only RESP has a response to consume (R60). -/
theorem consumed_eq_false {s : State} (p : PortIn) (hp : s.phase ≠ .resp) :
    consumed p s = false := by
  simp [← Bool.not_eq_true, consumed_iff, hp]

/-- Every edge has a next state (R195). -/
theorem step_answers (s : State) : ∃ t, step s = .next t := by
  cases hr : s.pins.rstN
  · exact ⟨_, step_of_reset hr⟩
  · obtain ⟨u, hu⟩ := exec_answers (decode s.cw) s.nextPins
    cases hp : s.phase with
    | idle | resp => simp [step, edge, hr, hp]
    | busy => by_cases h0 : s.remaining = 0 <;> simp [step, edge, complete, hr, hp, h0, hu]

theorem step_host {s t : State} (h : step s = .next t) : t.host = s.host.tail := by
  rcases edge_cases h with ⟨-, rfl⟩ | ⟨-, -, -, rfl⟩ | ⟨-, -, -, u, hu, rfl⟩ |
    ⟨-, -, -, rfl⟩ | ⟨-, -, -, rfl⟩ | ⟨-, rfl, -⟩
  · rfl
  · rfl
  · obtain ⟨-, -, -, hhost⟩ := exec_keeps_port hu
    exact hhost
  · rfl
  · rfl
  · rfl

/-- One edge without reset, as the handshake sees it: a command is accepted, the captured one completes,
a response is consumed, or all waits but `remaining` (R65). -/
theorem step_handshake_cases {s t : State} (h : step s = .next t) (hr : s.pins.rstN = true) :
    (accepted s.pins s = true ∧ t = accept s.pins.commandWord s.nextPins) ∨
    (s.phase = .busy ∧ s.remaining = 0 ∧ ∃ u, transact s.cw s = .next u ∧
      t.phase = .resp ∧ t.registers = u.registers ∧ t.response = u.response) ∨
    (consumed s.pins s = true ∧ t = { s.nextPins with phase := .idle }) ∨
    (accepted s.pins s = false ∧ consumed s.pins s = false ∧
      ∃ n, t = { s.nextPins with remaining := n }) := by
  rcases edge_cases h with ⟨hr', -⟩ | ⟨-, hp, hv, rfl⟩ | ⟨-, hp, h0, v, hv, rfl⟩ |
    ⟨-, hp, -, rfl⟩ | ⟨-, hp, hv, rfl⟩ | ⟨-, rfl, ⟨hp, hv⟩ | ⟨hp, hv⟩⟩
  · exact absurd (hr.symm.trans hr') nofun
  · exact .inl ⟨(accepted_iff _ _).2 ⟨hr, hv, hp⟩, rfl⟩
  · obtain ⟨u, hu, hreg, hrsp⟩ := exec_registers_congr (s := s.nextPins) (s' := s) rfl hv
    exact .inr (.inl ⟨hp, h0, u, hu, rfl, hreg.symm, hrsp.symm⟩)
  · exact .inr (.inr (.inr ⟨accepted_eq_false _ (ne_of_eq_of_ne hp nofun),
      consumed_eq_false _ (ne_of_eq_of_ne hp nofun), _, rfl⟩))
  · exact .inr (.inr (.inl ⟨(consumed_iff _ _).2 ⟨hr, hv, hp⟩, rfl⟩))
  · exact .inr (.inr (.inr ⟨by simp [accepted, hv],
      consumed_eq_false _ (ne_of_eq_of_ne hp nofun), s.remaining, rfl⟩))
  · exact .inr (.inr (.inr ⟨accepted_eq_false _ (ne_of_eq_of_ne hp nofun),
      by simp [consumed, hv], s.remaining, rfl⟩))

/-- Where no queued pins assert reset, this edge is without reset, quiet pins included (log entry 2). -/
theorem pins_rstN_of_host {s : State} (h : ∀ p ∈ s.host, p.rstN = true) : s.pins.rstN = true := by
  cases hh : s.host with
  | nil => simp [State.pins, hh, PortIn.quiet]
  | cons p ps => simpa [State.pins, hh] using h p (by simp [hh])

/-! ### Runs of commands -/

theorem runCommands_cons {cw : CommandWord} {rest : List CommandWord} {s t u : State}
    {rs : List Response} (ht : transact cw s = .next t) (hr : runCommands rest t = .next (rs, u)) :
    runCommands (cw :: rest) s = .next (t.response :: rs, u) := by
  simp only [runCommands, ht, hr]

/-- A run of commands reads the registers of R20 alone. -/
theorem runCommands_registers_congr {words : List CommandWord} {s s' u : State}
    {rs : List Response} (hreg : s'.registers = s.registers)
    (h : runCommands words s = .next (rs, u)) :
    ∃ u', runCommands words s' = .next (rs, u') ∧ u'.registers = u.registers := by
  induction words generalizing s s' rs with
  | nil =>
    cases h
    exact ⟨s', rfl, hreg⟩
  | cons cw rest ih =>
    obtain ⟨t, rs', ht, hrest, rfl⟩ := runCommands_cons_inv h
    obtain ⟨t', ht', htreg, htrsp⟩ := exec_registers_congr hreg ht
    obtain ⟨u', hu', hureg⟩ := ih htreg hrest
    exact ⟨u', by rw [runCommands_cons ht' hu', htrsp], hureg⟩

/-! ### The encoder and the byte lanes -/

@[simp] theorem extractLsb'_zext64 (b : Block) {start len : Nat} (h : start + len ≤ 64) :
    (zext64 b).extractLsb' start len = b.extractLsb' start len :=
  BitVec.extractLsb'_setWidth_of_le h

/-- The lanes above the block are zero (R47). -/
theorem extractLsb'_zext64_high (b : Block) : (zext64 b).extractLsb' 16 48 = 0#48 := by
  rw [zext64, BitVec.setWidth_eq_append (by decide)]
  exact BitVec.extractLsb'_append_eq_left

theorem decode_reserved {op : BitVec 4} (hop : op.getLsbD 3 = true) (len : BitVec 4) (data : Word) :
    decode (commandWord op len data) = .reserved op := by
  have hne : ∀ o : BitVec 4, o.getLsbD 3 = true → o ≠ 0x0#4 ∧ o ≠ 0x1#4 ∧ o ≠ 0x2#4 ∧
      o ≠ 0x3#4 ∧ o ≠ 0x4#4 ∧ o ≠ 0x5#4 ∧ o ≠ 0x6#4 ∧ o ≠ 0x7#4 := by decide
  simp [decode, hne op hop]

/-- Every well-formed instruction is read back from its word (R62, R68, R72). -/
theorem decode_encode {i : Instr} (hi : i.wellFormed = true) : decode (encode i) = i := by
  cases i with
  | status | init | reset | adv | keywin | pubkey => simp [decode, encode]
  | enc len block | dec len block =>
    simp [decode, encode, BitVec.extractLsb'_setWidth_of_le, BitVec.extractLsb'_eq_self]
  | reserved op => exact decode_reserved hi _ _

/-- A cipher command after its checks: the block XORed with the window of the new STATE (R160, R161). -/
theorem exec_enc_of_cfg {s : State} (hc : s.cfg = true) (block : Block) :
    exec (.enc 2#4 block) s =
      .next (respond .ok (zext64 (block ^^^ keyWindow (advance s))) (advance s)) := by
  rcases cipherCommand_cases 2#4 block s with ⟨h0, -⟩ | ⟨-, hl, -⟩ | ⟨-, -, h⟩
  · exact absurd hc (by simp [h0])
  · exact absurd rfl hl
  · exact congrArg Host.Outcome.next h

end Sys2Proof.Machine
end

section
/-! PROOFS. The statements about memory ordering and sharing: lanes, the refinement of edges by commands, the keystream count, isolation of cores, atomicity (spec/20_memory.md R43–R51). -/

namespace Sys2Proof.Machine

/-- Settles O20: XOR and the key window act bit by bit, so each lane of the answer reads its own lanes. -/
theorem cipherLanesNeverMix : Obligations.CipherLanesNeverMix := by
  intro b0 b1 s hc
  refine ⟨_, exec_enc_of_cfg hc (b0 ++ b1), ?_, ?_, ?_⟩
  · have hb : (b0 ++ b1).extractLsb' 8 8 = b0 := BitVec.extractLsb'_append_eq_left
    simp [keyWindow, low16, BitVec.extractLsb'_xor, BitVec.extractLsb'_extractLsb'_of_le, hb]
  · have hb : (b0 ++ b1).extractLsb' 0 8 = b1 := BitVec.extractLsb'_append_eq_right
    simp [keyWindow, low16, BitVec.extractLsb'_xor, BitVec.extractLsb'_extractLsb'_of_le, hb]
  · exact extractLsb'_zext64_high _

/-! ### Runs of edges refine runs of commands -/

/-- The command accepted and not yet completed, of which there is at most one (R44). -/
def State.captured (s : State) : List CommandWord := if s.phase = .busy then [s.cw] else []

/-- The response presented and not yet consumed. -/
def State.presented (s : State) : List Response := if s.phase = .resp then [s.response] else []

theorem captured_of_busy {s : State} (hp : s.phase = .busy) : s.captured = [s.cw] := by
  simp [State.captured, hp]

theorem captured_of_not_busy {s : State} (hp : s.phase ≠ .busy) : s.captured = [] := by
  simp [State.captured, hp]

theorem presented_of_resp {s : State} (hp : s.phase = .resp) : s.presented = [s.response] := by
  simp [State.presented, hp]

theorem presented_of_not_resp {s : State} (hp : s.phase ≠ .resp) : s.presented = [] := by
  simp [State.presented, hp]

/-- The trace `tr` from `s` to `t` is that of atomic commands: the one captured at `s` and those accepted since end in the
registers of `t`, and their responses are delivered after the one presented at `s`. -/
def RefinesCommands (s : State) (tr : Trace) (t : State) : Prop :=
  ∃ rs u, runCommands (s.captured ++ tr.words) s = .next (rs, u) ∧
    tr.responses = s.presented ++ rs ∧ t.registers = u.registers

theorem refinesCommands_iff_of_idle {s t : State} {tr : Trace} (hp : s.phase = .idle) :
    RefinesCommands s tr t ↔
      ∃ u, runCommands tr.words s = .next (tr.responses, u) ∧ t.registers = u.registers := by
  have hc : s.captured = [] := captured_of_not_busy (ne_of_eq_of_ne hp nofun)
  have hr : s.presented = [] := presented_of_not_resp (ne_of_eq_of_ne hp nofun)
  simp [RefinesCommands, hc, hr]

/-- One edge more in front of a run keeps the refinement: only the completing edge runs a command. -/
theorem refinesCommands_step {s v t : State} {tr : Trace} (hs : step s = .next v)
    (hr : s.pins.rstN = true) (h : RefinesCommands v tr t) :
    RefinesCommands s (tr.record s) t := by
  obtain ⟨rs, u, hrun, hrsp, ht⟩ := h
  -- the captured and accepted words run alike from every state with the registers of `v`
  have hread : ∀ {w : State}, v.registers = w.registers →
      ∃ u', runCommands (v.captured ++ tr.words) w = .next (rs, u') ∧ t.registers = u'.registers :=
    fun hv => (runCommands_registers_congr hv.symm hrun).imp
      fun _ ⟨hrun', hu⟩ => ⟨hrun', ht.trans hu.symm⟩
  rcases step_handshake_cases hs hr with ⟨ha, rfl⟩ | ⟨hp, -, w, hw, hvp, hvreg, hvrsp⟩ | ⟨hc, rfl⟩ |
    ⟨ha, hc, n, rfl⟩
  · obtain ⟨-, -, hp⟩ := (accepted_iff _ _).1 ha
    have hc : consumed s.pins s = false := consumed_eq_false _ (ne_of_eq_of_ne hp nofun)
    obtain ⟨u', hrun', ht'⟩ := hread (w := s) rfl
    refine (refinesCommands_iff_of_idle hp).2 ⟨u', ?_, ht'⟩
    have hrs : tr.responses = rs := hrsp
    simp only [Trace.record, ha, hc, hrs]
    exact hrun'
  · obtain ⟨u', hrun', ht'⟩ := hread hvreg
    rw [captured_of_not_busy (ne_of_eq_of_ne hvp nofun), List.nil_append] at hrun'
    rw [presented_of_resp hvp, hvrsp] at hrsp
    rw [Trace.record_of_busy tr hp]
    refine ⟨w.response :: rs, u', ?_, ?_, ht'⟩
    · rw [captured_of_busy hp]
      exact runCommands_cons hw hrun'
    · rw [presented_of_not_resp (ne_of_eq_of_ne hp nofun), hrsp]
      rfl
  · obtain ⟨-, -, hp⟩ := (consumed_iff _ _).1 hc
    have ha : accepted s.pins s = false := accepted_eq_false _ (ne_of_eq_of_ne hp nofun)
    obtain ⟨u', hrun', ht'⟩ := hread (w := s) rfl
    have hrs : tr.responses = rs := hrsp
    refine ⟨rs, u', ?_, ?_, ht'⟩
    · simp only [captured_of_not_busy (s := s) (ne_of_eq_of_ne hp nofun), Trace.record, ha]
      exact hrun'
    · simp [presented_of_resp hp, Trace.record, hc, hrs]
  · obtain ⟨u', hrun', ht'⟩ := hread (w := s) rfl
    have htr : tr.record s = tr := by simp [Trace.record, ha, hc]
    rw [htr]
    exact ⟨rs, u', hrun', hrsp, ht'⟩

theorem runEdges_succ_inv {n : Nat} {s t : State} {tr : Trace}
    (h : runEdges (n + 1) s = .next (tr, t)) :
    ∃ v tr', step s = .next v ∧ runEdges n v = .next (tr', t) ∧ tr = tr'.record s := by
  obtain ⟨v, hv⟩ := step_answers s
  simp only [runEdges, hv] at h
  split at h
  · cases h
    exact ⟨v, _, hv, ‹_›, rfl⟩
  · cases h
  · cases h

/-- By induction on the edges: a run without reset that ends in IDLE has nothing left to complete or deliver. -/
theorem runEdges_refinesCommands {n : Nat} {s t : State} {tr : Trace}
    (hhost : ∀ p ∈ s.host, p.rstN = true) (h : runEdges n s = .next (tr, t))
    (ht : t.phase = .idle) : RefinesCommands s tr t := by
  induction n generalizing s tr with
  | zero =>
    cases h
    exact (refinesCommands_iff_of_idle ht).2 ⟨_, rfl, rfl⟩
  | succ n ih =>
    obtain ⟨v, tr', hv, hrun, rfl⟩ := runEdges_succ_inv h
    refine refinesCommands_step hv (pins_rstN_of_host hhost) (ih (fun p hp => ?_) hrun)
    rw [step_host hv] at hp
    exact hhost p (List.mem_of_mem_tail hp)

/-- Settles O38: at both ends of the run no command is captured and no response presented. -/
theorem edgeRunsAreCommandRuns : Obligations.EdgeRunsAreCommandRuns :=
  fun _ _ _ _ hs hhost h ht =>
    (refinesCommands_iff_of_idle hs).1 (runEdges_refinesCommands hhost h ht)

/-! ### The keystream counts the advances -/

/-- A configured core at `S_k` moves on by one with an advance, and stays there with any other command but RESET (R48, R145). -/
theorem exec_counts_advance {i : Instr} {s t : State} {k : Nat} (hi : i ≠ .reset)
    (hc : s.cfg = true) (hs : s.state = keystream s.seed k) (h : exec i s = .next t) :
    t.cfg = true ∧ t.seed = s.seed ∧
      t.state = keystream s.seed (k + if advances i = true then 1 else 0) := by
  rcases exec_effect_of_cfg hc h with ⟨ha, d, rfl⟩ | ⟨rfl, -⟩ | ⟨ha, hreg⟩
  · simp [hc, ha, hs, keystream]
  · exact absurd rfl hi
  · simp only [State.registers, Registers.mk.injEq] at hreg
    obtain ⟨hstate, hseed, hcfg, -, -⟩ := hreg
    simp [ha, hstate, hseed, hcfg, hc, hs]

theorem runCommands_counts_advances {commands : List Instr} {k : Nat} {s : State}
    (hcmd : ∀ i ∈ commands, i.wellFormed = true ∧ i ≠ .reset) (hc : s.cfg = true)
    (hs : s.state = keystream s.seed k) :
    ∃ rs t, runCommands (commands.map encode) s = .next (rs, t) ∧
      t.seed = s.seed ∧ t.state = keystream s.seed (k + commands.countP advances) := by
  induction commands generalizing k s with
  | nil => exact ⟨[], s, rfl, rfl, hs⟩
  | cons i rest ih =>
    obtain ⟨⟨hwf, hi⟩, hrest⟩ := List.forall_mem_cons.1 hcmd
    obtain ⟨v, hv⟩ := exec_answers i s
    obtain ⟨hvc, hvseed, hvstate⟩ := exec_counts_advance hi hc hs hv
    rw [← hvseed] at hvstate
    obtain ⟨rs, t, ht, hseed, hstate⟩ := ih hrest hvc hvstate
    have hw : transact (encode i) s = .next v := by rw [transact, decode_encode hwf, hv]
    refine ⟨_, t, runCommands_cons hw ht, hseed.trans hvseed, ?_⟩
    rw [hstate, hvseed, List.countP_cons, Nat.add_assoc, Nat.add_comm (List.countP _ _)]

/-- Settles O50, by induction on the commands. -/
theorem keystreamCountsAdvances : Obligations.KeystreamCountsAdvances := by
  refine ⟨fun commands k s hcmd hc hs => ?_, fun s hc => ?_⟩
  · obtain ⟨rs, t, hrun, hseed, hstate⟩ := runCommands_counts_advances hcmd hc hs
    exact ⟨rs, t, hrun, hseed, hstate, congrArg low16 hstate⟩
  · exact ⟨_, congrArg Host.Outcome.next (whenConfigured_of_cfg _ hc), rfl, rfl⟩

/-! ### Isolation of cores -/

theorem onInstance_of_next {n : Nat} {k : Fin n} {f : State → Host.Outcome State Fault Refusal}
    {pl : Platform n} {t : State} (h : f pl[k] = .next t) :
    pl.onInstance k f = .next (pl.set k t) := by
  simp only [Platform.onInstance, h]

/-- A core that moves has the effect it has alone, and the others keep their state (R220). -/
theorem onInstance_isolated {n : Nat} (k : Fin n) {f : State → Host.Outcome State Fault Refusal}
    (pl : Platform n) (hf : ∃ t, f pl[k] = .next t) :
    ∃ pl', pl.onInstance k f = .next pl' ∧ f pl[k] = .next pl'[k] ∧
      ∀ j : Fin n, j ≠ k → pl'[j] = pl[j] := by
  obtain ⟨t, ht⟩ := hf
  refine ⟨_, onInstance_of_next ht, ?_, fun j hj => ?_⟩
  · simpa using ht
  · exact Vector.getElem_set_ne _ _ fun h => hj (Fin.ext h.symm)

/-- Two cores move in either order to the same platform (R50). -/
theorem onInstance_comm {n : Nat} {j k : Fin n} {f g : State → Host.Outcome State Fault Refusal}
    (pl : Platform n) (hjk : j ≠ k) (hf : ∃ t, f pl[j] = .next t) (hg : ∃ u, g pl[k] = .next u) :
    ∃ a b c, pl.onInstance j f = .next a ∧ a.onInstance k g = .next c ∧
      pl.onInstance k g = .next b ∧ b.onInstance j f = .next c := by
  obtain ⟨t, ht⟩ := hf
  obtain ⟨u, hu⟩ := hg
  have hne : j.val ≠ k.val := fun h => hjk (Fin.ext h)
  have hk : (pl.set j t)[k] = pl[k] := Vector.getElem_set_ne _ _ hne
  have hj : (pl.set k u)[j] = pl[j] := Vector.getElem_set_ne _ _ hne.symm
  refine ⟨_, _, _, onInstance_of_next ht, onInstance_of_next (hk ▸ hu), onInstance_of_next hu, ?_⟩
  rw [Vector.set_comm t u hne]
  exact onInstance_of_next (hj ▸ ht)

/-- Settles O56: a command or an edge reads and writes one core's slot of the platform. -/
theorem instancesAreIsolated : Obligations.InstancesAreIsolated :=
  ⟨fun _ k pl _ => ⟨onInstance_isolated k pl (exec_answers _ _),
      onInstance_isolated k pl (step_answers _)⟩,
    fun _ _ _ pl _ _ hjk => onInstance_comm pl hjk (exec_answers _ _) (exec_answers _ _)⟩

/-! ### Atomicity -/

/-- Settles O59, from the cases of one edge and from what a command reads. -/
theorem atomicityIsTheOnlySynchronisation : Obligations.AtomicityIsTheOnlySynchronisation := by
  refine ⟨fun s t h hr => ?_, fun s t h hr => ?_, fun cw s s' hreg => ?_, fun i => ?_⟩
  · rcases step_handshake_cases h hr with ⟨-, rfl⟩ | ⟨hp, h0, hu⟩ | ⟨-, rfl⟩ | ⟨-, -, _, rfl⟩
    · exact .inl ⟨rfl, rfl⟩
    · exact .inr ⟨hp, h0, hu⟩
    · exact .inl ⟨rfl, rfl⟩
    · exact .inl ⟨rfl, rfl⟩
  · rcases step_handshake_cases h hr with ⟨ha, rfl⟩ | ⟨hp, -, _, -, ht, -⟩ | ⟨hc, rfl⟩ | ⟨ha, hc, _, rfl⟩
    · obtain ⟨-, -, hp⟩ := (accepted_iff _ _).1 ha
      simp [ha, hp, consumed_iff]
    · simp [accepted_iff, consumed_iff, hp, ht]
    · obtain ⟨-, -, hp⟩ := (consumed_iff _ _).1 hc
      simp [hc, hp, accepted_iff]
    · simp [ha, hc]
  · obtain ⟨t, ht⟩ := exec_answers (decode cw) s
    obtain ⟨t', ht', hsame⟩ := exec_registers_congr hreg ht
    exact ⟨t, t', ht, ht', hsame⟩
  · cases i <;> simp [Instr.mnemonic]

end Sys2Proof.Machine
end

section
/-! PROOFS. Decoder, encoder and assembler: the rows of the opcode table and the fields each reads (spec/30_encoding.md R62, R68–R76). -/

namespace Sys2Proof.Machine

/-! ### The word and its fields -/

theorem commandWord_fields (cw : CommandWord) :
    commandWord (opField cw) (lenField cw) (dataField cw) = cw := by
  apply BitVec.eq_of_toNat_eq
  have hcw := cw.isLt
  simp only [commandWord_toNat, opField, lenField, dataField, BitVec.extractLsb'_toNat,
    Nat.shiftRight_eq_div_pow]
  omega

/-- Settles O4, from the value of a word and the fields read from it. -/
theorem commandWordConcatenatesItsFields : Obligations.CommandWordConcatenatesItsFields :=
  ⟨fun op len data => ⟨opField_commandWord op len data, lenField_commandWord op len data,
      dataField_commandWord op len data, commandWord_toNat op len data⟩,
    commandWord_fields, by decide⟩

/-! ### The decoder, row by row -/

@[simp] theorem decode_status (len : BitVec 4) (data : Word) :
    decode (commandWord 0x0#4 len data) = .status := by simp [decode]
@[simp] theorem decode_init (len : BitVec 4) (data : Word) :
    decode (commandWord 0x1#4 len data) = .init data := by simp [decode]
@[simp] theorem decode_reset (len : BitVec 4) (data : Word) :
    decode (commandWord 0x2#4 len data) = .reset := by simp [decode]
@[simp] theorem decode_adv (len : BitVec 4) (data : Word) :
    decode (commandWord 0x3#4 len data) = .adv := by simp [decode]
@[simp] theorem decode_keywin (len : BitVec 4) (data : Word) :
    decode (commandWord 0x4#4 len data) = .keywin := by simp [decode]
@[simp] theorem decode_pubkey (len : BitVec 4) (data : Word) :
    decode (commandWord 0x5#4 len data) = .pubkey := by simp [decode]
@[simp] theorem decode_enc (len : BitVec 4) (data : Word) :
    decode (commandWord 0x6#4 len data) = .enc len (data.extractLsb' 0 16) := by simp [decode]
@[simp] theorem decode_dec (len : BitVec 4) (data : Word) :
    decode (commandWord 0x7#4 len data) = .dec len (data.extractLsb' 0 16) := by simp [decode]

/-- An opcode is reserved, or one of the eight of a command (R68). -/
theorem opcode_cases (op : BitVec 4) :
    op.getLsbD 3 = true ∨ op = 0x0#4 ∨ op = 0x1#4 ∨ op = 0x2#4 ∨ op = 0x3#4 ∨ op = 0x4#4 ∨
      op = 0x5#4 ∨ op = 0x6#4 ∨ op = 0x7#4 := by
  revert op
  decide

/-- The decoder reads no reserved opcode where `op[3] = 0` (R69). -/
theorem decode_wellFormed (cw : CommandWord) : (decode cw).wellFormed = true := by
  rw [← commandWord_fields cw]
  rcases opcode_cases (opField cw) with hop | hop
  · rwa [decode_reserved hop]
  · rcases hop with h | h | h | h | h | h | h | h <;> simp [h, Instr.wellFormed]

/-- Settles O1, by the encoder's round trip. -/
theorem encodedInstructionDecodesBack : Obligations.EncodedInstructionDecodesBack :=
  fun _ => decode_encode

/-! ### The opcode table -/

/-- Which row a word decodes to depends on `op` alone (R69). -/
theorem mnemonic_decode_commandWord (op len : BitVec 4) (data : Word) :
    (decode (commandWord op len data)).mnemonic = (decode (commandWord op 0#4 0#64)).mnemonic := by
  rcases opcode_cases op with hop | hop
  · rw [decode_reserved hop, decode_reserved hop]
  · rcases hop with h | h | h | h | h | h | h | h <;> simp [h, Instr.mnemonic]

theorem commandWord_and (op op' len len' : BitVec 4) (data data' : Word) :
    commandWord op len data &&& commandWord op' len' data' =
      commandWord (op &&& op') (len &&& len') (data &&& data') :=
  BitVec.and_append.trans (congrArg (· ++ _) BitVec.and_append)

/-- No mask of the table looks below `op` (R68). -/
theorem opcodeTable_mask : ∀ r ∈ opcodeTable, r.mask = commandWord (opField r.mask) 0#4 0#64 := by
  decide

/-- Which rows a word matches depends on `op` alone (R69). -/
theorem matchingRows_commandWord (op len : BitVec 4) (data : Word) :
    matchingRows (commandWord op len data) = matchingRows (commandWord op 0#4 0#64) := by
  refine List.filter_congr fun r hr => ?_
  rw [opcodeTable_mask r hr]
  simp [commandWord_and]

theorem matchingRows_mnemonic (cw : CommandWord) :
    (matchingRows cw).map (·.mnemonic) = [(decode cw).mnemonic] := by
  have hop : ∀ op : BitVec 4, (matchingRows (commandWord op 0#4 0#64)).map (·.mnemonic) =
      [(decode (commandWord op 0#4 0#64)).mnemonic] := by decide
  rw [← commandWord_fields cw, matchingRows_commandWord, mnemonic_decode_commandWord, hop]

/-- Settles O2: row by row, and for the table from the 16 opcodes. -/
theorem decodingIsByOpcodeAlone : Obligations.DecodingIsByOpcodeAlone := by
  refine ⟨fun len data => ?_, fun op len data hop => ?_, matchingRows_mnemonic⟩
  · exact ⟨decode_status _ _, decode_init _ _, decode_reset _ _, decode_adv _ _, decode_keywin _ _,
      decode_pubkey _ _, decode_enc _ _, decode_dec _ _⟩
  · refine ⟨decode_reserved hop len data, fun s => ⟨raiseErr .illegalCommand s, ?_, rfl⟩⟩
    rw [transact, decode_reserved hop]
    rfl

/-! ### Ignored fields -/

/-- A word and the one the encoder writes for it are the same command (R72). -/
theorem transact_encode_decode (cw : CommandWord) (s : State) :
    transact (encode (decode cw)) s = transact cw s := by
  rw [transact, decode_encode (decode_wellFormed cw), transact]

/-- Where the encoder writes `w` for the word `cw`, both have the same outcome. -/
theorem ignored_of_encode_decode {cw w : CommandWord} (h : encode (decode cw) = w) :
    (∀ s, transact cw s = transact w s) ∧ encode (decode cw) = w :=
  ⟨fun s => h ▸ (transact_encode_decode cw s).symm, h⟩

/-- The block in the low lanes of a word is the word with its other lanes cleared (R70). -/
theorem setWidth_extractLsb'_block (data : Word) :
    (data.extractLsb' 0 16).setWidth 64 = data &&& 0xFFFF#64 := by
  apply BitVec.eq_of_toNat_eq
  rw [BitVec.toNat_setWidth_of_le (by decide), BitVec.extractLsb'_toNat, Nat.shiftRight_zero,
    BitVec.toNat_and]
  exact (Nat.and_two_pow_sub_one_eq_mod _ 16).symm

/-- Settles O3: what the encoder writes for a decoded word is the word with its ignored fields 0. -/
theorem ignoredFieldsNeverMatter : Obligations.IgnoredFieldsNeverMatter := by
  refine ⟨fun op len data hop => ignored_of_encode_decode ?_,
    fun len data => ignored_of_encode_decode ?_,
    fun op len data hop => ignored_of_encode_decode ?_⟩
  · rcases hop with rfl | rfl | rfl | rfl | rfl | hop
    · rw [decode_status, encode]
    · rw [decode_reset, encode]
    · rw [decode_adv, encode]
    · rw [decode_keywin, encode]
    · rw [decode_pubkey, encode]
    · rw [decode_reserved hop, encode]
  · rw [decode_init, encode]
  · rcases hop with rfl | rfl
    · rw [decode_enc, encode, setWidth_extractLsb'_block]
    · rw [decode_dec, encode, setWidth_extractLsb'_block]

/-! ### The assembler -/

theorem rawWord_toNat (o n : BitVec 4) (d : Word) :
    rawWord o.toNat n.toNat d.toNat = some (commandWord o n d) := by
  simp [rawWord, o.isLt, n.isLt, d.isLt]

theorem rawWord_eq_none {o n d : Nat} (h : 2 ^ 4 ≤ o ∨ 2 ^ 4 ≤ n ∨ 2 ^ 64 ≤ d) :
    rawWord o n d = none :=
  if_neg fun ⟨ho, hn, hd⟩ => by omega

theorem blockWord_toNat (o : BitVec 4) (b : Block) :
    blockWord o.toNat b.toNat = some (commandWord o 2#4 (b.setWidth 64)) := by
  have hb : (b.setWidth 64).toNat = b.toNat := BitVec.toNat_setWidth_of_le (by decide)
  rw [blockWord, if_pos b.isLt, ← hb]
  exact rawWord_toNat o 2#4 _

theorem blockWord_eq_none (o : Nat) {b : Nat} (h : 2 ^ 16 ≤ b) : blockWord o b = none :=
  if_neg (not_lt.2 h)

/-- Settles O5: the words of R76 by evaluation. -/
theorem workedEncodings : Obligations.WorkedEncodings := by
  unfold Obligations.WorkedEncodings
  decide

/-- Settles O6: each form is a raw word or a block word, in range or out of it. -/
theorem assemblerFormsAndRanges : Obligations.AssemblerFormsAndRanges := by
  refine ⟨rfl, rfl, rfl, rfl, rfl, fun k => rfl, fun s => ?_, fun b => ⟨?_, ?_⟩,
    fun n d => ⟨?_, ?_, fun o => ?_⟩, fun s hs => ?_, fun b hb => ⟨?_, ?_⟩,
    fun n d h => ⟨?_, ?_⟩, fun o n d h => ?_⟩
  · exact congrArg (Option.map _) (rawWord_toNat 0x1#4 0#4 s)
  · exact congrArg (Option.map _) (blockWord_toNat 0x6#4 b)
  · exact congrArg (Option.map _) (blockWord_toNat 0x7#4 b)
  · exact congrArg (Option.map _) (rawWord_toNat 0x6#4 n d)
  · exact congrArg (Option.map _) (rawWord_toNat 0x7#4 n d)
  · exact congrArg (Option.map _) (rawWord_toNat o n d)
  · exact congrArg (Option.map _) (rawWord_eq_none (.inr (.inr hs)))
  · exact congrArg (Option.map _) (blockWord_eq_none 0x6 hb)
  · exact congrArg (Option.map _) (blockWord_eq_none 0x7 hb)
  · exact congrArg (Option.map _) (rawWord_eq_none (.inr h))
  · exact congrArg (Option.map _) (rawWord_eq_none (.inr h))
  · exact congrArg (Option.map _) (rawWord_eq_none h)

end Sys2Proof.Machine
end

section
/-! PROOFS. The command handshake: one equation for each branch of R65's process, runs of edges in RESP and in BUSY, and what outlives a command (spec/30_encoding.md R60–R67). -/

namespace Sys2Proof.Machine

/-! ### One edge, branch by branch -/

theorem step_idle_accept {s : State} (hr : s.pins.rstN = true) (hp : s.phase = .idle)
    (hv : s.pins.cmdValid = true) : step s = .next (accept s.pins.commandWord s.nextPins) := by
  simp [step, edge, hr, hp, hv]

theorem step_idle_wait {s : State} (hr : s.pins.rstN = true) (hp : s.phase = .idle)
    (hv : s.pins.cmdValid = false) : step s = .next s.nextPins := by
  simp [step, edge, hr, hp, hv]

theorem step_busy_count {s : State} (hr : s.pins.rstN = true) (hp : s.phase = .busy)
    (h0 : s.remaining ≠ 0) :
    step s = .next { s.nextPins with remaining := s.remaining - 1 } := by
  simp [step, edge, hr, hp, h0]

theorem step_busy_complete {s u : State} (hr : s.pins.rstN = true) (hp : s.phase = .busy)
    (h0 : s.remaining = 0) (hu : exec (decode s.cw) s = .next u) :
    step s = .next { u with phase := .resp, host := s.host.tail } := by
  obtain ⟨-, hcw, hrem, -⟩ := exec_keeps_port hu
  have hnext : exec (decode s.cw) s.nextPins =
      .next { u with phase := s.phase, cw := s.cw, remaining := s.remaining, host := s.host.tail } :=
    exec_carries_port hu _ _ _ _
  simp [step, edge, complete, hr, hp, h0, hnext, hcw, hrem]

theorem step_resp_take {s : State} (hr : s.pins.rstN = true) (hp : s.phase = .resp)
    (hv : s.pins.rspReady = true) : step s = .next { s.nextPins with phase := .idle } := by
  simp [step, edge, hr, hp, hv]

theorem step_resp_wait {s : State} (hr : s.pins.rstN = true) (hp : s.phase = .resp)
    (hv : s.pins.rspReady = false) : step s = .next s.nextPins := by
  simp [step, edge, hr, hp, hv]

/-- Where no command is accepted, an edge reads no pin of the command (R67). -/
theorem edge_congr_of_not_accepted {p q : PortIn} {s : State} (hr : p.rstN = q.rstN)
    (hv : p.rspReady = q.rspReady) (hp : accepted p s = false) (hq : accepted q s = false) :
    edge p s = edge q s := by
  cases hqr : q.rstN with
  | false => simp [edge, hr, hqr]
  | true =>
    cases hph : s.phase with
    | idle =>
      have hpv : p.cmdValid = false := by simpa [accepted, cmdReady, hr, hqr, hph] using hp
      have hqv : q.cmdValid = false := by simpa [accepted, cmdReady, hqr, hph] using hq
      simp [edge, hr, hqr, hph, hpv, hqv]
    | busy => simp [edge, hr, hqr, hph]
    | resp => simp [edge, hr, hqr, hph, hv]

/-- Settles O33: one equation for each branch, and the pins that an edge reads. -/
theorem handshakeFollowsTheProcess : Obligations.HandshakeFollowsTheProcess := by
  intro s hr
  refine ⟨step_idle_accept hr, step_idle_wait hr, fun hp h0 => step_busy_count hr hp h0.ne',
    fun hp h0 => ?_, step_resp_take hr, step_resp_wait hr, fun p hs hps hpr hpv => ?_⟩
  · obtain ⟨u, hu⟩ := exec_answers (decode s.cw) s
    exact ⟨u, hu, step_busy_complete hr hp h0 hu⟩
  · exact edge_congr_of_not_accepted (s := s.nextPins) (hpr.trans hr.symm) hpv hps hs

/-- Settles O34, from the completing edge. -/
theorem stepRunsTheDecodedCommand : Obligations.StepRunsTheDecodedCommand := by
  rintro s _ - rfl hr hp h0
  obtain ⟨u, hu⟩ := exec_answers (decode s.cw) s
  exact ⟨u, hu, step_busy_complete hr hp h0 hu⟩

/-- Settles O40, from what the two outputs are defined to read. -/
theorem readyAndValidReadPhaseAndResetOnly : Obligations.ReadyAndValidReadPhaseAndResetOnly := by
  refine ⟨fun p q s t hr hp => ?_, fun p s => ⟨fun hr => ?_, fun hr => ?_⟩⟩
  · simp [outputs, cmdReady, rspValid, hr, hp]
  · simp [outputs, cmdReady, rspValid, hr]
  · simp [outputs, cmdReady, rspValid, hr]

/-! ### Runs of edges -/

theorem runEdges_answers (n : Nat) (s : State) : ∃ tr t, runEdges n s = .next (tr, t) := by
  induction n generalizing s with
  | zero => exact ⟨_, s, rfl⟩
  | succ n ih =>
    obtain ⟨t, ht⟩ := step_answers s
    obtain ⟨tr, u, hu⟩ := ih t
    exact ⟨_, u, runEdges_cons ht hu⟩

/-- Settles O35, by induction on the edges. -/
theorem everyEdgeAnswers : Obligations.EveryEdgeAnswers := runEdges_answers

/-- What holds of the coming `n + 1` pins and of quiet ones holds at this edge and of the `n` pins after it. -/
theorem pins_of_forall_take {Q : PortIn → Prop} {n : Nat} {s : State} (hq : Q PortIn.quiet)
    (h : ∀ p ∈ s.host.take (n + 1), Q p) : Q s.pins ∧ ∀ p ∈ s.nextPins.host.take n, Q p := by
  cases hh : s.host with
  | nil => simpa [State.pins, hh] using hq
  | cons p ps => simpa [State.pins, hh] using h

/-- Settles O36, by induction on the edges. -/
theorem responseHeldUntilTaken : Obligations.ResponseHeldUntilTaken := by
  intro n
  induction n with
  | zero => exact fun s _ _ => rfl
  | succ n ih =>
    intro s hp h
    obtain ⟨⟨hr, hv⟩, hrest⟩ := pins_of_forall_take ⟨rfl, rfl⟩ h
    have ha : accepted s.pins s = false := accepted_eq_false _ (ne_of_eq_of_ne hp nofun)
    have hc : consumed s.pins s = false := by simp [consumed, hv]
    rw [runEdges_cons (step_resp_wait hr hp hv) (ih s.nextPins hp hrest)]
    simp [Trace.record, ha, hc, State.nextPins]

/-- A captured command under any pins without reset: its edges before the completing one only count down (R66). -/
theorem runEdges_busy {n : Nat} {s : State} (hp : s.phase = .busy) (hn : n ≤ s.remaining)
    (h : ∀ p ∈ s.host.take n, p.rstN = true) :
    runEdges n s =
      .next (⟨[], []⟩, { s with remaining := s.remaining - n, host := s.host.drop n }) := by
  induction n generalizing s with
  | zero => rfl
  | succ n ih =>
    obtain ⟨hr, hrest⟩ := pins_of_forall_take (Q := fun p => p.rstN = true) rfl h
    have hle : n ≤ s.remaining - 1 := by omega
    have hrun := ih (s := { s.nextPins with remaining := s.remaining - 1 }) hp hle hrest
    rw [runEdges_cons (step_busy_count hr hp (by omega)) hrun, Trace.record_of_busy _ hp]
    simp [State.nextPins, Nat.sub_sub, Nat.add_comm 1 n]

/-- The edge after those is the completing one: RESP with the effect of `Execute` (R66). -/
theorem runEdges_busy_complete {n : Nat} {s u : State} (hp : s.phase = .busy)
    (hn : s.remaining = n) (h : ∀ p ∈ s.host.take (n + 1), p.rstN = true)
    (hu : transact s.cw s = .next u) :
    ∃ tr t, runEdges (n + 1) s = .next (tr, t) ∧
      t.phase = .resp ∧ t.response = u.response ∧ t.registers = u.registers := by
  induction n generalizing s u with
  | zero =>
    obtain ⟨hr, -⟩ := pins_of_forall_take (Q := fun p => p.rstN = true) rfl h
    exact ⟨_, _, runEdges_cons (step_busy_complete hr hp hn hu) rfl, rfl, rfl, rfl⟩
  | succ n ih =>
    obtain ⟨hr, hrest⟩ := pins_of_forall_take (Q := fun p => p.rstN = true) rfl h
    have hstep := step_busy_count hr hp (by omega)
    obtain ⟨v, hv, hreg, hrsp⟩ := exec_registers_congr (s := s)
      (s' := { s.nextPins with remaining := s.remaining - 1 }) rfl hu
    have hn' : s.remaining - 1 = n := by omega
    obtain ⟨tr, t, hrun, htp, htrsp, htreg⟩ :=
      ih (s := { s.nextPins with remaining := s.remaining - 1 }) hp hn' hrest hv
    exact ⟨_, t, runEdges_cons hstep hrun, htp, htrsp.trans hrsp, htreg.trans hreg⟩

/-- Settles O37: acceptance leaves `LAT - 1` edges of BUSY before the completing one. -/
theorem commandAnswersAfterItsLatency : Obligations.CommandAnswersAfterItsLatency := by
  intro s hacc h
  obtain ⟨hr, hv, hp⟩ := (accepted_iff _ _).1 hacc
  obtain ⟨-, hrest⟩ := pins_of_forall_take (Q := fun p => p.rstN = true) rfl h
  have hstep := step_idle_accept hr hp hv
  refine ⟨Nat.succ_pos _, fun n hn => ?_, ?_⟩
  · have hrun := runEdges_busy (n := n) (s := accept s.pins.commandWord s.nextPins) rfl
      (Nat.le_of_lt_succ hn)
      fun p hmem => hrest p (List.take_subset_take_left _ hn.le hmem)
    exact ⟨_, _, runEdges_cons hstep hrun, rfl, rfl⟩
  · obtain ⟨u, hu⟩ := exec_answers (decode s.pins.commandWord) s
    obtain ⟨v, hv, hreg, hrsp⟩ :=
      exec_registers_congr (s := s) (s' := accept s.pins.commandWord s.nextPins) rfl hu
    obtain ⟨tr, t, hrun, htp, htrsp, htreg⟩ :=
      runEdges_busy_complete (s := accept s.pins.commandWord s.nextPins) rfl rfl hrest hv
    exact ⟨_, t, u, runEdges_cons hstep hrun, hu, htp, htrsp.trans hrsp, htreg.trans hreg⟩

/-! ### What every edge keeps -/

theorem code_le_five (e : Status) : e.code.toNat ≤ 5 := by cases e <;> decide

/-- Every response is legal, whatever the registers before it were (R64, R200). -/
theorem exec_responseLegal {i : Instr} {s t : State} (h : exec i s = .next t) :
    t.ResponseLegal := by
  have hflag := exec_error_sets_flag h
  rcases exec_cases h with ⟨e, -, rfl⟩ | ⟨_, rfl⟩ | ⟨_, -, -, rfl⟩ | ⟨-, -, rfl⟩ | ⟨-, _, rfl⟩
  · exact ⟨code_le_five e, fun herr => ⟨rfl, hflag herr⟩⟩
  all_goals exact ⟨code_le_five .ok, fun herr => absurd rfl herr⟩

/-- Settles O43: hardware reset clears the response, and every command answers with a legal one. -/
theorem responseRegistersStayLegal : Obligations.ResponseRegistersStayLegal := by
  intro s t hs h
  exact step_preserves
    (I := fun r a => a.status.toNat ≤ 5 ∧
      (a.status ≠ 0x0#4 → a.data = 0x0#64 ∧ r.errf.getLsbD (a.status.toNat - 1) = true))
    (fun _ => ⟨Nat.zero_le 5, fun herr => absurd rfl herr⟩)
    (fun _ _ _ _ => exec_responseLegal) hs h

/-- Settles O44: acceptance loads `LAT - 1`, and BUSY counts down. -/
theorem busyStaysWithinLatency : Obligations.BusyStaysWithinLatency := by
  intro s t hs h
  rcases edge_cases h with ⟨-, rfl⟩ | ⟨-, -, -, rfl⟩ | ⟨-, -, -, _, -, rfl⟩ | ⟨-, -, -, rfl⟩ |
    ⟨-, -, -, rfl⟩ | ⟨-, rfl, -⟩
  · exact nofun
  · exact fun _ => Nat.lt_succ_self _
  · exact nofun
  · exact fun hp => (Nat.sub_le _ _).trans_lt (hs hp)
  · exact nofun
  · exact hs

/-! ### CW and `remaining` outside BUSY -/

/-- Outside BUSY an edge overwrites CW and `remaining` at acceptance, or carries them on outside BUSY (R65). -/
theorem step_carries_captured {s : State} (hp : s.phase ≠ .busy) (cw : CommandWord) (left : Nat) :
    ∃ t, step s = .next t ∧
      (step { s with cw := cw, remaining := left } = .next t ∨
       t.phase ≠ .busy ∧
        step { s with cw := cw, remaining := left } = .next { t with cw := cw, remaining := left }) := by
  obtain ⟨t, ht⟩ := step_answers s
  refine ⟨t, ht, ?_⟩
  rcases edge_cases ht with ⟨hr, rfl⟩ | ⟨hr, hi, hv, rfl⟩ | ⟨-, hb, -⟩ | ⟨-, hb, -⟩ |
    ⟨hr, hi, hv, rfl⟩ | ⟨hr, rfl, ⟨hi, hv⟩ | ⟨hi, hv⟩⟩
  · exact .inr ⟨nofun, step_of_reset hr⟩
  · exact .inl (step_idle_accept hr hi hv)
  · exact absurd hb hp
  · exact absurd hb hp
  · exact .inr ⟨nofun, step_resp_take hr hi hv⟩
  · exact .inr ⟨hp, step_idle_wait hr hi hv⟩
  · exact .inr ⟨hp, step_resp_wait hr hi hv⟩

/-- Settles O55, by induction on the edges up to the first acceptance. -/
theorem capturedWordIsDeadUnlessBusy : Obligations.CapturedWordIsDeadUnlessBusy := by
  intro n
  induction n with
  | zero => exact fun s cw left _ => ⟨_, s, _, rfl, rfl, rfl, rfl, rfl⟩
  | succ n ih =>
    intro s cw left hp
    obtain ⟨v, hv, hv' | ⟨hvp, hv'⟩⟩ := step_carries_captured hp cw left
    · obtain ⟨tr, t, ht⟩ := runEdges_answers n v
      exact ⟨_, t, t, runEdges_cons hv ht, runEdges_cons hv' ht, rfl, rfl, rfl⟩
    · obtain ⟨tr, t, t', ht, ht', hsame⟩ := ih v cw left hvp
      exact ⟨_, t, t', runEdges_cons hv ht, runEdges_cons hv' ht', hsame⟩

end Sys2Proof.Machine
end

section
/-! PROOFS. `power_mod` as the literal loop, its fixed points, and its exponents modulo `P − 1` (spec/40_modexp.md R100–R109); the degenerate seeds of the keystream (spec/41_keystream.md R148). -/

namespace Sys2Proof.Machine

/-! ### The value of `power_mod` -/

/-- Each turn of R100's loop is one more factor of the power. -/
theorem powerModLoop_eq {b : Nat} (hb : b < Config.P.toNat) (e : Nat) :
    powerModLoop b e = b ^ (e + 1) % Config.P.toNat := by
  induction e with
  | zero => rw [powerModLoop, pow_one, Nat.mod_eq_of_lt hb]
  | succ e ih => rw [powerModLoop, ih, Nat.mod_mul_mod, ← pow_succ]

/-- Settles O7: the machine's method and the loop compute the same power, which is a residue. -/
theorem powerModIsTheLiteralLoop : Obligations.PowerModIsTheLiteralLoop :=
  fun b e hb =>
    ⟨(powerMod_toNat b e).trans (powerModLoop_eq hb _).symm, powerMod_toNat b e,
      extractLsb'_61_of_lt_P (powerMod_lt_P b e)⟩

/-- Settles O8: the greatest exponent plus 1 is `2 ^ 64`, as a natural. -/
theorem powerModIsTheExactPower : Obligations.PowerModIsTheExactPower := by
  refine ⟨powerMod_eq_exactPower, fun b => ?_⟩
  have he : (0xFFFFFFFFFFFFFFFF#64).toNat + 1 = 2 ^ 64 := by decide
  rw [powerMod_toNat, he]

/-- Settles O9, from the value of `power_mod`. -/
theorem powerModResultIsAResidue : Obligations.PowerModResultIsAResidue :=
  fun b e => ⟨powerMod_lt_P b e, extractLsb'_61_of_lt_P (powerMod_lt_P b e)⟩

/-! ### Exponent zero -/

/-- The loop of R100 runs zero times (R106). -/
theorem powerMod_zero {b : Word} (hb : b.toNat < Config.P.toNat) : powerMod b 0#64 = b := by
  apply BitVec.eq_of_toNat_eq
  rw [powerMod_toNat, BitVec.toNat_ofNat, Nat.zero_mod, zero_add, pow_one, Nat.mod_eq_of_lt hb]

/-- With seed 0 an advance is seen in ADV alone (R106, R130). -/
theorem advance_of_seed_zero {s : State} (hseed : s.seed = 0#64)
    (hs : s.state.toNat < Config.P.toNat) : advance s = { s with adv := true } := by
  rw [advance, hseed, powerMod_zero hs]

/-- Settles O10: exponent 0 is the identity, so the advance of each of the three commands is. -/
theorem powerModExponentZeroIsIdentity : Obligations.PowerModExponentZeroIsIdentity := by
  refine ⟨fun b => powerMod_zero, fun s hc hseed hs => ?_⟩
  have hadv := advance_of_seed_zero hseed hs
  refine ⟨?_, fun block => ?_⟩
  · rw [exec, execAdv, whenConfigured_of_cfg _ hc, hadv]
    rfl
  · have henc := exec_enc_of_cfg hc block
    have hstate : (advance s).state = s.state := by rw [hadv]
    exact ⟨_, _, henc, henc, rfl, hstate, rfl, hstate⟩

/-! ### Nonzero residues -/

/-- `power_mod` maps `[1, P − 1]` into itself (R107). -/
theorem powerMod_in_range {b : Word} (e : Word)
    (hb : 1 ≤ b.toNat ∧ b.toNat ≤ Config.P.toNat - 1) :
    1 ≤ (powerMod b e).toNat ∧ (powerMod b e).toNat ≤ Config.P.toNat - 1 :=
  ⟨powerMod_pos e hb.1 (Nat.lt_of_le_sub_one prime_P.pos hb.2),
    Nat.le_sub_one_of_lt (powerMod_lt_P b e)⟩

theorem powerMod_one_base (e : Word) : powerMod 1#64 e = 1#64 := by
  apply BitVec.eq_of_toNat_eq
  rw [powerMod_toNat, show (1#64).toNat = 1 from rfl, one_pow, Nat.mod_eq_of_lt prime_P.one_lt]

theorem powerMod_zero_base (e : Word) : powerMod 0#64 e = 0#64 := by
  apply BitVec.eq_of_toNat_eq
  rw [powerMod_toNat, show (0#64).toNat = 0 from rfl, zero_pow (Nat.succ_ne_zero _), Nat.zero_mod]

/-- Settles O11, from the range of the power and its two fixed bases. -/
theorem nonzeroResiduesStayNonzero : Obligations.NonzeroResiduesStayNonzero :=
  ⟨fun _ e hb => powerMod_in_range e hb, powerMod_one_base, powerMod_zero_base⟩

/-! ### Exponents modulo `P − 1` -/

section Fermat
variable {b e e' : Word} (hb : 1 ≤ b.toNat ∧ b.toNat ≤ Config.P.toNat - 1)
include hb

/-- Fermat's little theorem for the prime `P` (R109). -/
theorem pow_P_sub_one_modEq : b.toNat ^ (Config.P.toNat - 1) ≡ 1 [MOD Config.P.toNat] := by
  have hcop : Config.P.toNat.Coprime b.toNat :=
    Nat.coprime_of_lt_prime (Nat.one_le_iff_ne_zero.1 hb.1)
      (Nat.lt_of_le_sub_one prime_P.pos hb.2) prime_P
  rw [← Nat.totient_prime prime_P]
  exact Nat.ModEq.pow_totient hcop.symm

/-- Whole multiples of `P − 1` drop out of an exponent (R109). -/
theorem pow_mod_P_sub_one_modEq (n : Nat) :
    b.toNat ^ n ≡ b.toNat ^ (n % (Config.P.toNat - 1)) [MOD Config.P.toNat] := by
  have hpow := ((pow_P_sub_one_modEq hb).pow (n / (Config.P.toNat - 1))).mul_right
    (b.toNat ^ (n % (Config.P.toNat - 1)))
  rwa [← pow_mul, ← pow_add, Nat.div_add_mod, one_pow, one_mul] at hpow

theorem powerMod_congr_exponent
    (h : (e.toNat + 1) % (Config.P.toNat - 1) = (e'.toNat + 1) % (Config.P.toNat - 1)) :
    powerMod b e = powerMod b e' := by
  have hpow := pow_mod_P_sub_one_modEq hb (e.toNat + 1)
  rw [h] at hpow
  apply BitVec.eq_of_toNat_eq
  rw [powerMod_toNat, powerMod_toNat]
  exact hpow.trans (pow_mod_P_sub_one_modEq hb _).symm

/-- An exponent that is 0 modulo `P − 1` acts like exponent 0 (R109). -/
theorem powerMod_eq_self (he : e.toNat % (Config.P.toNat - 1) = 0) : powerMod b e = b := by
  have h0 : (e.toNat + 1) % (Config.P.toNat - 1) = ((0#64).toNat + 1) % (Config.P.toNat - 1) := by
    rw [Nat.add_mod, he]
    rfl
  rw [powerMod_congr_exponent hb h0, powerMod_zero (Nat.lt_of_le_sub_one prime_P.pos hb.2)]

/-- An exponent that is `P − 2` modulo `P − 1` gives Fermat's power (R109). -/
theorem powerMod_eq_one (he : e.toNat % (Config.P.toNat - 1) = Config.P.toNat - 2) :
    powerMod b e = 1#64 := by
  have h0 : (e.toNat + 1) % (Config.P.toNat - 1) = 0 := by
    rw [Nat.add_mod, he]
    rfl
  have hpow := pow_mod_P_sub_one_modEq hb (e.toNat + 1)
  rw [h0, pow_zero] at hpow
  apply BitVec.eq_of_toNat_eq
  rw [powerMod_toNat]
  exact hpow

end Fermat

/-- Settles O12, by Fermat's little theorem. -/
theorem exponentsReduceModuloPMinusOne : Obligations.ExponentsReduceModuloPMinusOne :=
  fun _ hb =>
    ⟨pow_P_sub_one_modEq hb, fun _ _ => powerMod_congr_exponent hb,
      powerMod_eq_one hb (by decide), powerMod_eq_self hb (by decide),
      powerMod_congr_exponent hb (by decide)⟩

/-! ### Degenerate seeds -/

/-- The keystream starts in `[1, P − 1]` and stays there (R32, R107). -/
theorem keystream_in_range (seed : Word) (i : Nat) :
    1 ≤ (keystream seed i).toNat ∧ (keystream seed i).toNat ≤ Config.P.toNat - 1 := by
  induction i with
  | zero => exact G_in_range
  | succ i ih => exact powerMod_in_range seed ih

/-- A seed that is 0 modulo `P − 1` never leaves the generator (R148). -/
theorem keystream_eq_G {seed : Word} (hseed : seed.toNat % (Config.P.toNat - 1) = 0) (i : Nat) :
    keystream seed i = Config.G := by
  induction i with
  | zero => rfl
  | succ i ih => rw [keystream, ih, powerMod_eq_self G_in_range hseed]

/-- A seed that is `P − 2` modulo `P − 1` is at 1 from its first advance on (R148). -/
theorem keystream_succ_eq_one {seed : Word}
    (hseed : seed.toNat % (Config.P.toNat - 1) = Config.P.toNat - 2) (i : Nat) :
    keystream seed (i + 1) = 1#64 :=
  powerMod_eq_one (keystream_in_range seed i) hseed

/-- The keystream depends on the seed only modulo `P − 1` (R109, R148). -/
theorem keystream_congr_seed {seed seed' : Word}
    (h : (seed.toNat + 1) % (Config.P.toNat - 1) = (seed'.toNat + 1) % (Config.P.toNat - 1))
    (i : Nat) : keystream seed i = keystream seed' i := by
  induction i with
  | zero => rfl
  | succ i ih =>
    rw [keystream, keystream, ← ih, powerMod_congr_exponent (keystream_in_range seed i) h]

/-- Settles O52: the windows of G and of 1, and a period of `P − 1` in the seed. -/
theorem degenerateSeeds : Obligations.DegenerateSeeds := by
  refine ⟨fun seed hseed i => ?_, fun seed hseed i => ?_, fun seed seed' hseed => ?_⟩
  · have hG := keystream_eq_G hseed i
    exact ⟨hG, congrArg low16 hG⟩
  · have h1 := keystream_succ_eq_one hseed i
    exact ⟨h1, congrArg low16 h1⟩
  · refine keystream_congr_seed ?_
    rw [hseed, Nat.add_right_comm, Nat.add_mod_right]

end Sys2Proof.Machine
end

section
/-! PROOFS. The commands of the keystream state machine: INIT, RESET, ADV, KEYWIN, PUBKEY, and the closed form of the keystream (spec/41_keystream.md R120–R146). -/

namespace Sys2Proof.Machine

/-! ### The commands of a configured core -/

/-- The window of the generator (R126, R135). -/
theorem zext64_keyWindow_of_G {s : State} (hG : s.state = Config.G) :
    zext64 (keyWindow s) = 0xFFFF#64 := by
  rw [keyWindow, hG]
  rfl

section Configured
variable {s : State} (hc : s.cfg = true)
include hc

theorem exec_init_of_cfg (seed : Word) :
    exec (.init seed) s = .next (raiseErr .seedImmutable s) := by
  rw [exec, execInit, if_pos hc]

theorem exec_reset_of_cfg :
    exec .reset s = .next (respond .ok 0x0#64 { s with state := Config.G }) :=
  congrArg Host.Outcome.next (whenConfigured_of_cfg _ hc)

theorem exec_adv_of_cfg : exec .adv s = .next (respond .ok 0x0#64 (advance s)) :=
  congrArg Host.Outcome.next (whenConfigured_of_cfg _ hc)

theorem exec_pubkey_of_cfg :
    exec .pubkey s = .next (respond .ok (powerMod Config.G s.seed) s) :=
  congrArg Host.Outcome.next (whenConfigured_of_cfg _ hc)

/-- After an advance KEYWIN answers the window (R135). -/
theorem exec_keywin_of_adv (ha : s.adv = true) :
    exec .keywin s = .next (respond .ok (zext64 (keyWindow s)) s) := by
  rw [exec, execKeywin, whenConfigured_of_cfg _ hc, if_pos ha]

theorem exec_keywin_of_G (ha : s.adv = true) (hG : s.state = Config.G) :
    exec .keywin s = .next (respond .ok 0xFFFF#64 s) := by
  rw [exec_keywin_of_adv hc ha, zext64_keyWindow_of_G hG]

/-- Before an advance KEYWIN is refused (R205). -/
theorem exec_keywin_of_not_adv (ha : s.adv = false) :
    exec .keywin s = .next (raiseErr .noAdvanceYet s) := by
  rw [exec, execKeywin, whenConfigured_of_cfg _ hc, ha]
  rfl

end Configured

/-! ### INIT -/

/-- A configured core that has not advanced stays so under a command that does not advance (R120, R126). -/
theorem exec_keeps_no_advance {i : Instr} {s t : State} (hi : advances i = false)
    (hc : s.cfg = true) (ha : s.adv = false) (h : exec i s = .next t) :
    t.cfg = true ∧ t.adv = false := by
  refine ⟨?_, by rw [exec_adv h, if_pos hc, hi, ha]; rfl⟩
  rcases exec_seed_cfg_cases h with ⟨-, hcfg⟩ | ⟨-, hcfg, -⟩
  · exact hcfg.trans hc
  · exact hcfg

/-- However many commands go by without an advance, KEYWIN is still refused (R120, R205). -/
theorem runCommands_keywin_refused {words : List CommandWord} {s : State}
    (hw : ∀ cw ∈ words, advances (decode cw) = false) (hc : s.cfg = true) (ha : s.adv = false) :
    ∃ rs u, runCommands words s = .next (rs, u) ∧
      exec .keywin u = .next (raiseErr .noAdvanceYet u) := by
  induction words generalizing s with
  | nil => exact ⟨[], s, rfl, exec_keywin_of_not_adv hc ha⟩
  | cons cw rest ih =>
    obtain ⟨hcw, hrest⟩ := List.forall_mem_cons.1 hw
    obtain ⟨t, ht⟩ := exec_answers (decode cw) s
    obtain ⟨htc, hta⟩ := exec_keeps_no_advance hcw hc ha ht
    obtain ⟨rs, u, hu, hkeywin⟩ := ih hrest htc hta
    exact ⟨_, u, runCommands_cons ht hu, hkeywin⟩

/-- Settles O13: INIT leaves a configured core with ADV clear, which only an advance sets. -/
theorem initConstructs : Obligations.InitConstructs := by
  refine ⟨decode_init, fun seed s => ⟨fun hc => ?_, fun hc => exec_init_of_cfg hc seed⟩⟩
  exact ⟨_, rfl, exec_init_of_not_cfg seed hc,
    fun words hw => runCommands_keywin_refused hw rfl rfl⟩

/-! ### RESET -/

/-- Settles O14, from RESET and KEYWIN of a configured core; the window of G is 0xFFFF. -/
theorem resetRestoresTheGenerator : Obligations.ResetRestoresTheGenerator := by
  refine ⟨decode_reset, fun s => ⟨fun hc => ?_, exec_of_needsSeed rfl⟩⟩
  refine ⟨_, rfl, exec_reset_of_cfg hc, exec_reset_of_cfg hc, fun ha => exec_keywin_of_G hc ha rfl,
    fun ha => exec_keywin_of_not_adv hc ha, fun hG => ?_⟩
  exact registers_eq_iff.2 ⟨hG.symm, rfl, rfl, rfl, rfl⟩

/-! ### ADV -/

/-- The seeds and the state that an advance does not scatter (R131). -/
theorem advance_state_degenerate {s : State} (hs : s.StateInRange) :
    (s.seed = 0#64 ∨ s.seed = Config.P - 1#64 → (advance s).state = s.state) ∧
    (s.seed = Config.P - 2#64 → (advance s).state = 1#64) ∧
    (s.state = 1#64 → (advance s).state = 1#64) := by
  refine ⟨?_, fun hseed => ?_, fun h1 => ?_⟩
  · rintro (hseed | hseed)
    · exact powerMod_eq_self hs (by rw [hseed]; decide)
    · exact powerMod_eq_self hs (by rw [hseed]; decide)
  · exact powerMod_eq_one hs (by rw [hseed]; decide)
  · rw [advance_state, h1, powerMod_one_base]

/-- Settles O15: an advance is the exact power, and its degenerate cases are those of `power_mod`. -/
theorem advAppliesTheOneWayStep : Obligations.AdvAppliesTheOneWayStep := by
  refine ⟨decode_adv, fun s => ⟨fun hc => ?_, exec_of_needsSeed rfl⟩⟩
  rw [← powerMod_eq_exactPower]
  exact ⟨_, rfl, exec_adv_of_cfg hc, advance_state_degenerate⟩

/-! ### KEYWIN -/

theorem zext64_eq_zero_iff (b : Block) : zext64 b = 0x0#64 ↔ b = 0x0#16 := by
  refine ⟨fun h => ?_, fun h => by rw [h]; rfl⟩
  have hlow := congrArg low16 h
  rwa [low16, extractLsb'_zext64 b (by decide), BitVec.extractLsb'_eq_self] at hlow

/-- A lane of the zero-extended window is the lane of the word itself (R43, R135). -/
theorem extractLsb'_zext64_low16 (w : Word) {start len : Nat} (h : start + len ≤ 16) :
    (zext64 (low16 w)).extractLsb' start len = w.extractLsb' start len := by
  rw [extractLsb'_zext64 _ (by omega), low16, BitVec.extractLsb'_extractLsb'_of_le h]

/-- Settles O16: the window is the low lanes of STATE, and KEYWIN writes the response alone. -/
theorem keywinReturnsTheWindow : Obligations.KeywinReturnsTheWindow := by
  refine ⟨decode_keywin, fun s => ⟨fun hc ha => ?_, exec_keywin_of_not_adv, exec_of_needsSeed rfl⟩⟩
  refine ⟨_, rfl, exec_keywin_of_adv hc ha, exec_keywin_of_adv hc ha, ?_, ?_, ?_,
    zext64_keyWindow_of_G⟩
  · exact extractLsb'_zext64_low16 s.state (by decide)
  · exact extractLsb'_zext64_low16 s.state (by decide)
  · exact zext64_eq_zero_iff (low16 s.state)

/-! ### PUBKEY -/

/-- Settles O17: the public key is the power of the generator that a first ADV leaves in STATE. -/
theorem pubkeyReturnsTheSeedsPower : Obligations.PubkeyReturnsTheSeedsPower := by
  refine ⟨decode_pubkey, fun s => ⟨fun hc => ?_, exec_of_needsSeed rfl⟩⟩
  rw [← powerMod_eq_exactPower]
  refine ⟨_, rfl, exec_pubkey_of_cfg hc, extractLsb'_61_of_lt_P (powerMod_lt_P _ _),
    fun hseed => ?_, fun hseed => ?_, fun hG => ⟨_, exec_adv_of_cfg hc, ?_⟩⟩
  · exact powerMod_eq_self G_in_range (by rw [hseed]; decide)
  · exact powerMod_eq_one G_in_range (by rw [hseed]; decide)
  · rw [respond_state, advance_state, hG]

/-! ### The keystream -/

/-- Settles O51, by induction on the number of advances. -/
theorem keystreamClosedForm : Obligations.KeystreamClosedForm := by
  intro seed k
  induction k with
  | zero => rw [pow_zero, pow_one]; rfl
  | succ k ih => rw [keystream, powerMod_toNat, ih, ← Nat.pow_mod, ← pow_mul, ← pow_succ]

end Sys2Proof.Machine
end

section
/-! PROOFS. The XOR cipher: ENC and DEC, and the round trips of commands and of host buffers (spec/42_cipher.md R160–R173). -/

namespace Sys2Proof.Machine

/-! ### ENC -/

/-- Any length but 2 is refused with no advance (R163). -/
theorem exec_enc_of_len_ne {len : BitVec 4} {s : State} (hc : s.cfg = true) (hl : len ≠ 2#4)
    (block : Block) : exec (.enc len block) s = .next (raiseErr .invalidBlockSize s) := by
  rcases cipherCommand_cases len block s with ⟨h0, -⟩ | ⟨-, -, h⟩ | ⟨-, h2, -⟩
  · exact absurd (hc.symm.trans h0) nofun
  · exact congrArg Host.Outcome.next h
  · exact absurd h2 hl

/-- With seed 0 an advance from the generator stays there (R106, R131). -/
theorem advance_state_of_G {s : State} (hseed : s.seed = 0#64) (hG : s.state = Config.G) :
    (advance s).state = Config.G := by
  have hlt : s.state.toNat < Config.P.toNat := by rw [hG]; decide
  rw [advance_of_seed_zero hseed hlt, ← hG]

/-- The window of the generator is all ones, so XOR with it complements (R126, R160). -/
theorem xor_keyWindow_of_G {s : State} (hG : s.state = Config.G) (block : Block) :
    block ^^^ keyWindow s = ~~~block := by
  have hones : keyWindow s = BitVec.allOnes 16 := by rw [keyWindow, hG]; decide
  rw [hones, BitVec.xor_allOnes]

/-- Settles O18, from ENC of a configured core and its two refusals. -/
theorem encAdvancesThenXors : Obligations.EncAdvancesThenXors := by
  refine ⟨decode_enc, fun len block s =>
    ⟨fun hc hlen => ?_, fun hc hl => exec_enc_of_len_ne hc hl block, exec_of_needsSeed rfl⟩⟩
  subst hlen
  rw [← powerMod_eq_exactPower]
  refine ⟨_, rfl, exec_enc_of_cfg hc block, fun hzero => ?_, fun hwindow => ?_,
    fun hseed hG => ?_⟩
  · rw [hzero, BitVec.zero_xor]
  · rw [hwindow, BitVec.xor_self]
    rfl
  · have hstate := advance_state_of_G hseed hG
    exact ⟨congrArg zext64 (xor_keyWindow_of_G hstate block), hstate⟩

/-! ### DEC -/

/-- DEC shares ENC's operation (R165). -/
theorem exec_dec_eq_exec_enc (len : BitVec 4) (block : Block) (s : State) :
    exec (.dec len block) s = exec (.enc len block) s := rfl

/-- Settles O19: DEC's effects are those of ENC. -/
theorem decPerformsTheEncOperation : Obligations.DecPerformsTheEncOperation := by
  refine ⟨decode_dec, fun len block s => ⟨exec_dec_eq_exec_enc len block s, ?_⟩⟩
  rw [exec_dec_eq_exec_enc, ← powerMod_eq_exactPower]
  refine ⟨fun hc hlen => ?_, fun hc hl => exec_enc_of_len_ne hc hl block, exec_of_needsSeed rfl⟩
  subst hlen
  exact exec_enc_of_cfg hc block

@[simp] theorem low16_zext64 (b : Block) : low16 (zext64 b) = b := by
  rw [low16, extractLsb'_zext64 b (by decide), BitVec.extractLsb'_eq_self]

/-- Settles O46: the two advances give one window, and XOR with it twice is the identity. -/
theorem decInvertsEnc : Obligations.DecInvertsEnc := by
  intro block s s' hc hc' hstate hseed
  refine ⟨_, _, exec_enc_of_cfg hc block, exec_enc_of_cfg hc' _, rfl, ?_⟩
  have hwindow : keyWindow (advance s') = keyWindow (advance s) := by
    rw [keyWindow, advance_state, hstate, hseed, ← advance_state, keyWindow]
  have hanswer : low16 (zext64 (block ^^^ keyWindow (advance s))) ^^^ keyWindow (advance s') =
      block := by
    rw [low16_zext64, hwindow, BitVec.xor_assoc, BitVec.xor_self, BitVec.xor_zero]
  exact congrArg zext64 hanswer

/-! ### Blocks against the keystream -/

/-- Blocks XORed in order with the windows that follow `K_k` (R145, R160). -/
def keystreamXor (seed : Word) : Nat → List Block → List Block
  | _, [] => []
  | k, b :: rest => (b ^^^ keystreamWindow seed (k + 1)) :: keystreamXor seed (k + 1) rest

@[simp] theorem length_keystreamXor (seed : Word) (k : Nat) (blocks : List Block) :
    (keystreamXor seed k blocks).length = blocks.length := by
  induction blocks generalizing k with
  | nil => rfl
  | cons b rest ih => simp [keystreamXor, ih]

/-- Twice from the same place in the keystream is the identity (R166, R167). -/
@[simp] theorem keystreamXor_keystreamXor (seed : Word) (k : Nat) (blocks : List Block) :
    keystreamXor seed k (keystreamXor seed k blocks) = blocks := by
  induction blocks generalizing k with
  | nil => rfl
  | cons b rest ih => simp [keystreamXor, ih]

/-- A configured core at `S_k` of its seed's keystream (R145). -/
structure AtKeystream (seed : Word) (k : Nat) (s : State) : Prop where
  configured : s.cfg = true
  seed_eq : s.seed = seed
  state_eq : s.state = keystream seed k

/-- The two commands of a 2-byte block, which buffers and sequences are made of (R160, R165). -/
def IsCipher (command : Block → Instr) : Prop := command = .enc 2#4 ∨ command = .dec 2#4

theorem transact_encode {i : Instr} (hi : i.wellFormed = true) (s : State) :
    transact (encode i) s = exec i s := by
  rw [transact, decode_encode hi]

/-- RESET goes back to `S_0` (R125). -/
theorem transact_reset {seed : Word} {k : Nat} {s : State} (hs : AtKeystream seed k s) :
    ∃ t, transact (encode .reset) s = .next t ∧ t.response = ⟨0x0#4, 0x0#64⟩ ∧
      AtKeystream seed 0 t :=
  ⟨_, (transact_encode rfl s).trans (exec_reset_of_cfg hs.configured), rfl,
    hs.configured, hs.seed_eq, rfl⟩

section CipherCommand
variable {command : Block → Instr} (hcmd : IsCipher command)
include hcmd

theorem transact_cipher_eq_enc (b : Block) (s : State) :
    transact (encode (command b)) s = exec (.enc 2#4 b) s := by
  rcases hcmd with rfl | rfl
  · exact transact_encode rfl s
  · exact (transact_encode rfl s).trans (exec_dec_eq_exec_enc 2#4 b s)

/-- One block at `S_k`: the answer takes the window of `S_(k+1)`, where the core goes (R145, R160). -/
theorem transact_cipher {seed : Word} {k : Nat} {s : State} (hs : AtKeystream seed k s)
    (b : Block) :
    ∃ t, transact (encode (command b)) s = .next t ∧
      t.response = ⟨0x0#4, zext64 (b ^^^ keystreamWindow seed (k + 1))⟩ ∧
      AtKeystream seed (k + 1) t := by
  have hstate : (advance s).state = keystream seed (k + 1) := by
    rw [advance_state, hs.state_eq, hs.seed_eq, keystream]
  refine ⟨_, (transact_cipher_eq_enc hcmd b s).trans (exec_enc_of_cfg hs.configured b), ?_,
    hs.configured, hs.seed_eq, hstate⟩
  rw [respond_response, keyWindow, hstate]
  rfl

/-- A run of one command a block, from `S_k` (R167). -/
theorem runCommands_cipher {seed : Word} {k : Nat} {s : State} (hs : AtKeystream seed k s)
    (blocks : List Block) :
    ∃ t, runCommands (blocks.map (fun b => encode (command b))) s =
        .next ((keystreamXor seed k blocks).map (fun b => ⟨0x0#4, zext64 b⟩), t) ∧
      AtKeystream seed (k + blocks.length) t := by
  induction blocks generalizing k s with
  | nil => exact ⟨s, rfl, hs⟩
  | cons b rest ih =>
    obtain ⟨t, ht, hrsp, hkt⟩ := transact_cipher hcmd hs b
    obtain ⟨u, hu, hku⟩ := ih hkt
    refine ⟨u, ?_, ?_⟩
    · rw [List.map_cons, runCommands_cons ht hu, hrsp]
      rfl
    · rwa [List.length_cons, Nat.add_comm rest.length, ← Nat.add_assoc]

end CipherCommand

/-- Settles O47: RESET returns to `S_0`, from where the DECs take the windows of the ENCs again. -/
theorem sequenceRoundTrip : Obligations.SequenceRoundTrip := by
  intro blocks s hc hG
  obtain ⟨t, ht, hkt⟩ := runCommands_cipher (.inl rfl) (k := 0) ⟨hc, rfl, hG⟩ blocks
  obtain ⟨v, hv, hrsp, hkv⟩ := transact_reset hkt
  obtain ⟨u, hu, -⟩ := runCommands_cipher (.inr rfl) hkv (keystreamXor s.seed 0 blocks)
  refine ⟨_, t, u, ht, by simp, ?_⟩
  rw [keystreamXor_keystreamXor] at hu
  simp only [List.map_map, Function.comp_def, low16_zext64]
  rw [runCommands_cons hv hu, hrsp]
  rfl

/-! ### Host buffers -/

/-- The bytes of blocks, in order (R43, R170). -/
def blockBytes : List Block → List Byte
  | [] => []
  | b :: rest => byte0 b :: byte1 b :: blockBytes rest

theorem blockOf_bytes (b : Block) : blockOf (byte0 b) (byte1 b) = b :=
  (BitVec.extractLsb'_append_extractLsb'_eq_extractLsb' rfl).trans BitVec.extractLsb'_eq_self

theorem byte0_blockOf (x y : Byte) : byte0 (blockOf x y) = x := BitVec.extractLsb'_append_eq_left

theorem byte1_blockOf (x y : Byte) : byte1 (blockOf x y) = y := BitVec.extractLsb'_append_eq_right

theorem length_blockBytes (blocks : List Block) :
    (blockBytes blocks).length = 2 * blocks.length := by
  induction blocks with
  | nil => rfl
  | cons b rest ih => simp [blockBytes, ih, Nat.mul_succ]

@[simp] theorem bufferBlocks_blockBytes (blocks : List Block) :
    bufferBlocks (blockBytes blocks) = some blocks := by
  induction blocks with
  | nil => rfl
  | cons b rest ih => simp [blockBytes, bufferBlocks, ih, blockOf_bytes]

/-- An even buffer is the bytes of some blocks (R170). -/
theorem exists_eq_blockBytes : ∀ {buffer : List Byte}, buffer.length % 2 = 0 →
    ∃ blocks, buffer = blockBytes blocks
  | [], _ => ⟨[], rfl⟩
  | [_], h => absurd h nofun
  | x :: y :: rest, h => by
    have hrest : rest.length % 2 = 0 := by simpa [Nat.add_assoc] using h
    obtain ⟨blocks, rfl⟩ := exists_eq_blockBytes hrest
    exact ⟨blockOf x y :: blocks, by rw [blockBytes, byte0_blockOf, byte1_blockOf]⟩

/-- An odd buffer has no blocks (R170, R173). -/
theorem bufferBlocks_of_odd : ∀ {buffer : List Byte}, buffer.length % 2 = 1 →
    bufferBlocks buffer = none
  | [], h => absurd h nofun
  | [_], _ => rfl
  | _ :: _ :: rest, h => by
    have hrest : rest.length % 2 = 1 := by simpa [Nat.add_assoc] using h
    rw [bufferBlocks, bufferBlocks_of_odd hrest, Option.map_none]

theorem notConfigured_rspStatus_ne_ok {s : State} :
    (raiseErr .notConfigured s).rspStatus ≠ 0x0#4 := by
  rw [raiseErr_rspStatus]
  decide

section SendBlocks
variable {command : Block → Instr}

theorem bufferOperation_blockBytes (blocks : List Block) (s : State) :
    bufferOperation command (blockBytes blocks) s = sendBlocks command blocks s := by
  rw [bufferOperation, bufferBlocks_blockBytes]

theorem bufferOperation_of_odd {buffer : List Byte} (h : buffer.length % 2 = 1) (s : State) :
    bufferOperation command buffer s = .next (.unalignedBuffer, s) := by
  rw [bufferOperation, bufferBlocks_of_odd h]

/-- An OK response goes on to the next block (R170). -/
theorem sendBlocks_cons_ok {b : Block} {rest : List Block} {s t u : State} {c : Block}
    {out : List Byte} (ht : transact (encode (command b)) s = .next t)
    (hrsp : t.response = ⟨0x0#4, zext64 c⟩)
    (hrest : sendBlocks command rest t = .next (.bytes out, u)) :
    sendBlocks command (b :: rest) s = .next (.bytes (byte0 c :: byte1 c :: out), u) := by
  have hok : t.rspStatus = 0x0#4 := congrArg Response.status hrsp
  have hdata : t.rspData = zext64 c := congrArg Response.data hrsp
  simp only [sendBlocks, ht, hok, if_true, hrest, hdata, low16_zext64]

/-- An error stops the expansion (R170). -/
theorem sendBlocks_cons_error {b : Block} {rest : List Block} {s t : State}
    (ht : transact (encode (command b)) s = .next t) (herr : t.rspStatus ≠ 0x0#4) :
    sendBlocks command (b :: rest) s = .next (.status t.rspStatus, t) := by
  simp only [sendBlocks, ht, herr, if_false]

/-- A buffer of blocks from `S_k` (R170). -/
theorem sendBlocks_cipher (hcmd : IsCipher command) {seed : Word} {k : Nat} {s : State}
    (hs : AtKeystream seed k s) (blocks : List Block) :
    ∃ t, sendBlocks command blocks s =
        .next (.bytes (blockBytes (keystreamXor seed k blocks)), t) ∧
      AtKeystream seed (k + blocks.length) t := by
  induction blocks generalizing k s with
  | nil => exact ⟨s, rfl, hs⟩
  | cons b rest ih =>
    obtain ⟨t, ht, hrsp, hkt⟩ := transact_cipher hcmd hs b
    obtain ⟨u, hu, hku⟩ := ih hkt
    refine ⟨u, sendBlocks_cons_ok ht hrsp hu, ?_⟩
    rwa [List.length_cons, Nat.add_comm rest.length, ← Nat.add_assoc]

/-- Without a seed the first block ends the operation (R170, R202). -/
theorem sendBlocks_of_not_cfg (hcmd : IsCipher command) {s : State} (hc : s.cfg = false)
    (b : Block) (rest : List Block) :
    sendBlocks command (b :: rest) s = .next (.status 0x2#4, raiseErr .notConfigured s) := by
  have hb := (transact_cipher_eq_enc hcmd b s).trans (exec_of_needsSeed rfl hc)
  exact sendBlocks_cons_error hb notConfigured_rspStatus_ne_ok

end SendBlocks

/-! ### REDECRYPT -/

theorem redecrypt_of_odd {buffer : List Byte} (h : buffer.length % 2 = 1) (s : State) :
    redecrypt buffer s = .next (.unalignedBuffer, s) := by
  rw [redecrypt, bufferBlocks_of_odd h]

/-- REDECRYPT of blocks: the RESET, then DECBUF unless it failed (R172, log entry 8). -/
theorem redecrypt_blockBytes {s t : State} (ht : transact (encode .reset) s = .next t)
    (blocks : List Block) :
    redecrypt (blockBytes blocks) s =
      if t.rspStatus = 0x0#4 then decbuf (blockBytes blocks) t
      else .next (.status t.rspStatus, t) := by
  simp only [redecrypt, bufferBlocks_blockBytes, ht]

/-- Without a seed the RESET ends it (R202, log entry 8). -/
theorem redecrypt_of_not_cfg {s : State} (hc : s.cfg = false) (blocks : List Block) :
    redecrypt (blockBytes blocks) s = .next (.status 0x2#4, raiseErr .notConfigured s) := by
  have hreset := (transact_encode rfl s).trans (exec_of_needsSeed (i := .reset) rfl hc)
  rw [redecrypt_blockBytes hreset, if_neg notConfigured_rspStatus_ne_ok]
  rfl

/-- Settles O48: both buffer operations start at `S_0`, where the second undoes the first. -/
theorem redecryptRecoversTheBuffer : Obligations.RedecryptRecoversTheBuffer := by
  intro buffer s hc hG heven
  obtain ⟨blocks, rfl⟩ := exists_eq_blockBytes heven
  obtain ⟨t, ht, hkt⟩ := sendBlocks_cipher (.inl rfl) (k := 0) ⟨hc, rfl, hG⟩ blocks
  obtain ⟨v, hv, hrsp, hkv⟩ := transact_reset hkt
  obtain ⟨u, hu, -⟩ := sendBlocks_cipher (.inr rfl) hkv (keystreamXor s.seed 0 blocks)
  refine ⟨_, t, u, (bufferOperation_blockBytes _ _).trans ht, ?_, ?_⟩
  · simp only [length_blockBytes, length_keystreamXor]
  · have hok : v.rspStatus = 0x0#4 := congrArg Response.status hrsp
    rw [keystreamXor_keystreamXor] at hu
    rw [redecrypt_blockBytes hv, if_pos hok]
    exact (bufferOperation_blockBytes _ _).trans hu

/-- Settles O49: an odd buffer has no blocks, an empty one no command, and a refused one stops at its first. -/
theorem oddBuffersIssueNoCommand : Obligations.OddBuffersIssueNoCommand := by
  intro buffer s
  refine ⟨fun hodd => ?_, fun hempty => ?_, fun heven hne hc => ?_⟩
  · exact ⟨bufferOperation_of_odd hodd s, bufferOperation_of_odd hodd s, redecrypt_of_odd hodd s⟩
  · subst hempty
    exact ⟨rfl, rfl⟩
  · obtain ⟨_ | ⟨b, rest⟩, rfl⟩ := exists_eq_blockBytes heven
    · exact absurd rfl hne
    · exact ⟨_, rfl,
        (bufferOperation_blockBytes _ s).trans (sendBlocks_of_not_cfg (.inl rfl) hc b rest),
        (bufferOperation_blockBytes _ s).trans (sendBlocks_of_not_cfg (.inr rfl) hc b rest),
        redecrypt_of_not_cfg hc (b :: rest)⟩

end Sys2Proof.Machine
end

section
/-! PROOFS. Reserved opcodes, and the errors of commands with their retry (spec/43_control.md R193, R195; spec/60_exceptions.md R204–R209). -/

namespace Sys2Proof.Machine

/-! ### Reserved opcodes -/

/-- The opcodes 0x8 to 0xF are those with `op[3] = 1` (R69). -/
theorem getLsbD_three_of_le {op : BitVec 4} (hop : 0x8 ≤ op.toNat) : op.getLsbD 3 = true := by
  have hmsb : op.msb = true := by simpa [BitVec.msb_eq_decide] using hop
  rwa [BitVec.msb_eq_getLsbD_last] at hmsb

/-- Settles O22: the decoder reads the reserved row, whose meaning is ILLEGAL_COMMAND in every state. -/
theorem reservedOpcodesAreIllegal : Obligations.ReservedOpcodesAreIllegal :=
  fun _ len data _ hop => ⟨decode_reserved (getLsbD_three_of_le hop) len data, rfl⟩

/-! ### Errors and their retry -/

/-- The commands that end in an error, each with the check that failed (R206). -/
theorem exec_error_cases {i : Instr} {s t : State} (h : exec i s = .next t)
    (herr : t.rspStatus ≠ 0x0#4) :
    ((∃ op, i = .reserved op) ∧ t = raiseErr .illegalCommand s) ∨
    (needsSeed i = true ∧ s.cfg = false ∧ t = raiseErr .notConfigured s) ∨
    ((∃ seed, i = .init seed) ∧ s.cfg = true ∧ t = raiseErr .seedImmutable s) ∨
    ((∃ len block, len ≠ 2#4 ∧ (i = .enc len block ∨ i = .dec len block)) ∧ s.cfg = true ∧
      t = raiseErr .invalidBlockSize s) ∨
    (i = .keywin ∧ s.cfg = true ∧ s.adv = false ∧ t = raiseErr .noAdvanceYet s) := by
  cases hc : s.cfg
  case false =>
    cases hi : needsSeed i
    · rcases eq_of_not_needsSeed hi with hstatus | hinit | ⟨op, rfl⟩
      · exact absurd ((exec_ok_of_not_cfg_iff hc h).2 (.inl hstatus)) herr
      · exact absurd ((exec_ok_of_not_cfg_iff hc h).2 (.inr hinit)) herr
      · cases h; exact .inl ⟨⟨op, rfl⟩, rfl⟩
    · rw [exec_of_needsSeed hi hc] at h
      cases h; exact .inr (.inl ⟨rfl, rfl, rfl⟩)
  case true =>
    have cipher : ∀ len block, exec (.enc len block) s = .next t →
        len ≠ 2#4 ∧ t = raiseErr .invalidBlockSize s := by
      intro len block h
      by_cases hl : len = 2#4
      · rw [hl, exec_enc_of_cfg hc] at h
        cases h; exact absurd rfl herr
      · rw [exec_enc_of_len_ne hc hl] at h
        cases h; exact ⟨hl, rfl⟩
    cases i with
    | status => cases h; exact absurd rfl herr
    | init seed =>
      rw [exec_init_of_cfg hc] at h
      cases h; exact .inr (.inr (.inl ⟨⟨seed, rfl⟩, rfl, rfl⟩))
    | reset | adv | pubkey =>
      cases h
      exact absurd (congrArg State.rspStatus (whenConfigured_of_cfg _ hc)) herr
    | keywin =>
      cases ha : s.adv
      · rw [exec_keywin_of_not_adv hc ha] at h
        cases h; exact .inr (.inr (.inr (.inr ⟨rfl, rfl, rfl, rfl⟩)))
      · rw [exec_keywin_of_adv hc ha] at h
        cases h; exact absurd rfl herr
    | enc len block =>
      obtain ⟨hl, ht⟩ := cipher len block h
      exact .inr (.inr (.inr (.inl ⟨⟨len, block, hl, .inl rfl⟩, rfl, ht⟩)))
    | dec len block =>
      obtain ⟨hl, ht⟩ := cipher len block ((exec_dec_eq_exec_enc len block s).symm.trans h)
      exact .inr (.inr (.inr (.inl ⟨⟨len, block, hl, .inr rfl⟩, rfl, ht⟩)))
    | reserved op => cases h; exact .inl ⟨⟨op, rfl⟩, rfl⟩

/-- The same error again adds no flag and gives the same response (R25, R209). -/
@[simp] theorem raiseErr_raiseErr (e : Status) (s : State) :
    raiseErr e (raiseErr e s) = raiseErr e s := by
  simp [raiseErr, respond, BitVec.or_assoc]

/-- A command refused with `e` once more leaves the state of the first refusal (R209). -/
theorem exec_retry {i : Instr} {e : Status} {s : State}
    (h : exec i (raiseErr e s) = .next (raiseErr e (raiseErr e s))) :
    exec i (raiseErr e s) = .next (raiseErr e s) := by
  rwa [raiseErr_raiseErr] at h

/-- Settles O26: an error leaves CFG and ADV, so the check that failed fails again, with the same error. -/
theorem retryReproducesTheError : Obligations.RetryReproducesTheError := by
  intro i s t h herr
  rcases exec_error_cases h herr with ⟨⟨op, rfl⟩, rfl⟩ | ⟨hi, hc, rfl⟩ | ⟨⟨seed, rfl⟩, hc, rfl⟩ |
    ⟨⟨len, block, hl, rfl | rfl⟩, hc, rfl⟩ | ⟨rfl, hc, ha, rfl⟩
  · exact exec_retry rfl
  · exact exec_retry (exec_of_needsSeed hi hc)
  · exact exec_retry (exec_init_of_cfg (s := raiseErr _ s) hc seed)
  · exact exec_retry (exec_enc_of_len_ne (s := raiseErr _ s) hc hl block)
  · exact exec_retry ((exec_dec_eq_exec_enc _ _ _).trans
      (exec_enc_of_len_ne (s := raiseErr _ s) hc hl block))
  · exact exec_retry (exec_keywin_of_not_adv hc ha)

end Sys2Proof.Machine
end

section
/-! PROOFS. One status and one flag for each command, and a host session over the port (spec/60_exceptions.md R202–R208, R222). -/

namespace Sys2Proof.Machine

/-- Settles O23: each of these commands checks CFG before anything else. -/
theorem unconfiguredCommandsAreRefused : Obligations.UnconfiguredCommandsAreRefused :=
  fun _ _ => exec_of_needsSeed

/-! ### One status and one flag -/

/-- The status of the first check that a command fails, OK where it fails none (R206). -/
def firstCheck (i : Instr) (s : State) : Status :=
  match i with
  | .reserved _ => .illegalCommand
  | .status => .ok
  | .init _ => if s.cfg then .seedImmutable else .ok
  | .reset | .adv | .pubkey => if s.cfg then .ok else .notConfigured
  | .keywin => if s.cfg then (if s.adv then .ok else .noAdvanceYet) else .notConfigured
  | .enc len _ | .dec len _ =>
    if s.cfg then (if len = 2#4 then .ok else .invalidBlockSize) else .notConfigured

theorem exec_rspStatus {i : Instr} {s t : State} (h : exec i s = .next t) :
    t.rspStatus = (firstCheck i s).code := by
  have cipher : ∀ len block, (cipherCommand len block s).rspStatus =
      (firstCheck (.enc len block) s).code := by
    intro len block
    rcases cipherCommand_cases len block s with ⟨hc, e⟩ | ⟨hc, hl, e⟩ | ⟨hc, hl, e⟩
    · simp [e, firstCheck, hc]
    · simp [e, firstCheck, hc, hl]
    · rw [e, firstCheck, if_pos hc, if_pos hl]
      rfl
  cases i with
  | status | reserved => cases h; rfl
  | init => cases h; cases hc : s.cfg <;> simp [firstCheck, hc]
  | reset | adv | pubkey => cases h; cases hc : s.cfg <;> simp [firstCheck, whenConfigured, hc]
  | keywin =>
    cases h; cases hc : s.cfg <;> cases ha : s.adv <;> simp [firstCheck, whenConfigured, hc, ha]
  | enc len block | dec len block => cases h; exact cipher len block

theorem code_ne_ok {e : Status} (he : e ≠ .ok) : e.code ≠ 0x0#4 := by
  cases e with
  | ok => exact absurd rfl he
  | invalidBlockSize | notConfigured | seedImmutable | illegalCommand | noAdvanceYet => decide

/-- The opcodes with `op[3] = 1` are 0x8 to 0xF (R69). -/
theorem le_toNat_of_getLsbD_three {op : BitVec 4} (hop : op.getLsbD 3 = true) :
    0x8 ≤ op.toNat := by
  have hmsb : op.msb = true := (BitVec.msb_eq_getLsbD_last op).trans hop
  simpa [BitVec.msb_eq_decide] using hmsb

/-- Settles O24: opcode by opcode, the checks of the decoded command; then the flag of its status. -/
theorem oneStatusByPriority : Obligations.OneStatusByPriority := by
  intro op len data s
  obtain ⟨t, ht⟩ := exec_answers (decode (commandWord op len data)) s
  refine ⟨t, ht, ?_, ?_⟩
  · rw [exec_rspStatus ht]
    rcases opcode_cases op with hop | rfl | rfl | rfl | rfl | rfl | rfl | rfl | rfl
    · rw [decode_reserved hop, if_pos (le_toNat_of_getLsbD_three hop)] -- RESERVED
      rfl
    · simp [firstCheck, Status.code] -- STATUS
    · cases hc : s.cfg <;> simp [firstCheck, Status.code, hc] -- INIT
    · cases hc : s.cfg <;> simp [firstCheck, Status.code, hc] -- RESET
    · cases hc : s.cfg <;> simp [firstCheck, Status.code, hc] -- ADV
    · cases hc : s.cfg <;> cases ha : s.adv <;> simp [firstCheck, Status.code, hc, ha] -- KEYWIN
    · cases hc : s.cfg <;> simp [firstCheck, Status.code, hc] -- PUBKEY
    · cases hc : s.cfg <;> by_cases hl : len = 2#4 <;> simp [firstCheck, Status.code, hc, hl] -- ENC
    · cases hc : s.cfg <;> by_cases hl : len = 2#4 <;> simp [firstCheck, Status.code, hc, hl] -- DEC
  · rcases exec_errf_cases ht with ⟨e, he, hst, herrf⟩ | ⟨hst, herrf⟩
    · rw [hst, herrf, errBit_eq_shift e he]
      exact ⟨fun hok => absurd hok (code_ne_ok he), fun _ => rfl⟩
    · exact ⟨fun _ => herrf, fun herr => absurd hst herr⟩

/-- Settles O25: of all that a command can do, only an error answers a status other than OK. -/
theorem errorsWriteOnlyTheirFlag : Obligations.ErrorsWriteOnlyTheirFlag := by
  intro i s
  obtain ⟨t, ht⟩ := exec_answers i s
  refine ⟨t, ht, fun herr => ?_⟩
  rcases exec_cases ht with ⟨e, he, rfl⟩ | ⟨_, rfl⟩ | ⟨_, -, -, rfl⟩ | ⟨-, -, rfl⟩ | ⟨-, _, rfl⟩
  · have hpos : e.code.toNat ≠ 0 := fun h0 => herr (BitVec.eq_of_toNat_eq h0)
    refine ⟨Nat.one_le_iff_ne_zero.2 hpos, code_le_five e, ?_⟩
    rw [raiseErr_rspStatus, ← errBit_eq_shift e he]
    rfl
  all_goals exact absurd rfl herr

/-! ### A host session -/

/-- Under `pins`, whatever pins follow them, the run from `s` leaves the trace `tr` and ends in `t` (R222, log entry 2). -/
def Drives (pins : List PortIn) (tr : Trace) (s t : State) : Prop :=
  ∀ rest, runEdges pins.length { s with host := pins ++ rest } =
    .next (tr, { t with host := rest })

theorem Drives.append {pins pins' : List PortIn} {tr tr' : Trace} {s t u : State}
    (h : Drives pins tr s t) (h' : Drives pins' tr' t u) :
    Drives (pins ++ pins') ⟨tr.words ++ tr'.words, tr.responses ++ tr'.responses⟩ s u := by
  intro rest
  rw [List.length_append, List.append_assoc]
  exact runEdges_append (h _) (h' rest)

theorem Trace.record_of_accepted {s : State} (tr : Trace) (h : accepted s.pins s = true) :
    tr.record s = ⟨s.pins.commandWord :: tr.words, tr.responses⟩ := by
  obtain ⟨-, -, hp⟩ := (accepted_iff _ _).1 h
  have hc : consumed s.pins s = false := consumed_eq_false _ (ne_of_eq_of_ne hp nofun)
  simp [Trace.record, h, hc]

theorem Trace.record_of_consumed {s : State} (tr : Trace) (h : consumed s.pins s = true) :
    tr.record s = ⟨tr.words, s.response :: tr.responses⟩ := by
  obtain ⟨-, -, hp⟩ := (consumed_iff _ _).1 h
  have ha : accepted s.pins s = false := accepted_eq_false _ (ne_of_eq_of_ne hp nofun)
  simp [Trace.record, h, ha]

/-- One edge: its step, and what it adds to the trace. -/
theorem drives_edge {p : PortIn} {tr : Trace} {s t : State}
    (hstep : ∀ rest, step { s with host := p :: rest } = .next { t with host := rest })
    (htr : ∀ rest, Trace.record { s with host := p :: rest } ⟨[], []⟩ = tr) :
    Drives [p] tr s t :=
  fun rest => (runEdges_cons (n := 0) (hstep rest) rfl).trans (by rw [htr])

/-- IDLE and RESP wait under quiet pins (R65). -/
theorem drives_quiet {s : State} (hp : s.phase ≠ .busy) (n : Nat) :
    Drives (List.replicate n PortIn.quiet) ⟨[], []⟩ s s := by
  have hwait : Drives [PortIn.quiet] ⟨[], []⟩ s s := by
    cases hph : s.phase with
    | idle =>
      exact drives_edge
        (fun rest => step_idle_wait (s := { s with host := _ :: rest }) rfl hph rfl) fun _ => rfl
    | busy => exact absurd hph hp
    | resp =>
      exact drives_edge
        (fun rest => step_resp_wait (s := { s with host := _ :: rest }) rfl hph rfl) fun _ => rfl
  induction n with
  | zero => exact fun _ => rfl
  | succ n ih => exact hwait.append ih

/-- IDLE accepts a command word at any edge without reset that offers one (R65). -/
theorem drives_accept {p : PortIn} {s : State} (hr : p.rstN = true) (hv : p.cmdValid = true)
    (hp : s.phase = .idle) :
    Drives [p] ⟨[p.commandWord], []⟩ s (accept p.commandWord s) :=
  drives_edge (fun rest => step_idle_accept (s := { s with host := p :: rest }) hr hp hv)
    fun _ => Trace.record_of_accepted _ ((accepted_iff _ _).2 ⟨hr, hv, hp⟩)

/-- RESP delivers its response to the host that takes it (R65). -/
theorem drives_take {s : State} (hp : s.phase = .resp) :
    Drives [PortIn.take] ⟨[], [s.response]⟩ s { s with phase := .idle } :=
  drives_edge (fun rest => step_resp_take (s := { s with host := _ :: rest }) rfl hp rfl)
    fun _ => Trace.record_of_consumed _ ((consumed_iff _ _).2 ⟨rfl, rfl, hp⟩)

/-- The captured command's latency passes under quiet pins, and RESP holds its effect (R66). -/
theorem drives_latency {s u : State} (hp : s.phase = .busy) (hu : transact s.cw s = .next u) :
    Drives (List.replicate (s.remaining + 1) PortIn.quiet) ⟨[], []⟩ s
      { u with phase := .resp, cw := s.cw, remaining := 0 } := by
  intro rest
  have hcarry := exec_carries_port hu s.phase s.cw s.remaining
    (List.replicate (s.remaining + 1) PortIn.quiet ++ rest)
  have hrun := runEdges_busy_quiet
    (s := { s with host := List.replicate (s.remaining + 1) PortIn.quiet ++ rest }) hp rfl hcarry
  rwa [List.length_replicate]

/-- An offered command is accepted and executed, and its response presented (R65, R66). -/
theorem drives_command {cw : CommandWord} {s u : State} (hp : s.phase = .idle)
    (hu : transact cw s = .next u) :
    ∃ v, Drives (PortIn.offer cw :: List.replicate (Config.lat cw) PortIn.quiet) ⟨[cw], []⟩ s v ∧
      v.phase = .resp ∧ v.response = u.response ∧ v.registers = u.registers := by
  have hword : (PortIn.offer cw).commandWord = cw := commandWord_fields cw
  have hoffer := drives_accept (p := PortIn.offer cw) rfl rfl hp
  rw [hword] at hoffer
  have hbusy := exec_carries_port hu .busy cw (Config.lat cw - 1) s.host
  exact ⟨_, hoffer.append (drives_latency (s := accept cw s) rfl hbusy),
    rfl, rfl, rfl⟩

/-- A visit delivers the response of its command and leaves its registers, in IDLE (R222). -/
theorem drives_visit {cw : CommandWord} {s u : State} (hp : s.phase = .idle)
    (hu : transact cw s = .next u) (before stall : Nat) :
    ∃ t, Drives (visit cw before stall) ⟨[cw], [u.response]⟩ s t ∧
      t.registers = u.registers ∧ t.phase = .idle := by
  obtain ⟨v, hv, hvp, hvrsp, hvreg⟩ := drives_command hp hu
  have hpause := drives_quiet (ne_of_eq_of_ne hp nofun) before
  have hstall := drives_quiet (ne_of_eq_of_ne hvp nofun) stall
  refine ⟨{ v with phase := .idle }, ?_, hvreg, rfl⟩
  rw [visit, List.replicate_add, List.append_assoc, ← hvrsp]
  exact hpause.append (hv.append (hstall.append (drives_take hvp)))

/-- A session delivers the responses of the atomic run and leaves its registers, in IDLE (R222, R255). -/
theorem drives_session {visits : List (CommandWord × Nat × Nat)} {s u : State}
    {rs : List Response} (hp : s.phase = .idle)
    (h : runCommands (visits.map (·.1)) s = .next (rs, u)) :
    ∃ t, Drives (session visits) ⟨visits.map (·.1), rs⟩ s t ∧
      t.registers = u.registers ∧ t.phase = .idle := by
  induction visits generalizing s u rs with
  | nil =>
    cases h
    exact ⟨s, fun _ => rfl, rfl, hp⟩
  | cons v visits ih =>
    obtain ⟨cw, before, stall⟩ := v
    obtain ⟨w, rs', hw, hrest, rfl⟩ := runCommands_cons_inv h
    obtain ⟨t, ht, htreg, htp⟩ := drives_visit hp hw before stall
    obtain ⟨u', hu', hureg⟩ := runCommands_registers_congr htreg hrest
    obtain ⟨t', ht', htreg', htp'⟩ := ih htp hu'
    exact ⟨t', ht.append ht', htreg'.trans hureg, htp'⟩

theorem runCommands_answers (words : List CommandWord) (s : State) :
    ∃ rs u, runCommands words s = .next (rs, u) := by
  induction words generalizing s with
  | nil => exact ⟨[], s, rfl⟩
  | cons cw rest ih =>
    obtain ⟨t, ht⟩ := exec_answers (decode cw) s
    obtain ⟨rs, u, hu⟩ := ih t
    exact ⟨_, u, runCommands_cons ht hu⟩

/-- Settles O39: visit by visit, from IDLE to IDLE. -/
theorem sessionDeliversEveryResponse : Obligations.SessionDeliversEveryResponse := by
  intro visits rest s hp hhost
  obtain ⟨rs, u, hu⟩ := runCommands_answers (visits.map (·.1)) s
  obtain ⟨t, ht, hreg, htp⟩ := drives_session hp hu
  have hrun := ht rest
  rw [← hhost] at hrun
  exact ⟨_, _, u, hrun, rfl, hu, hreg, htp, rfl⟩

end Sys2Proof.Machine
end

section
/-! PROOFS. Hardware reset, and the pairing hazard of a stray advance (spec/70_reset_and_hazards.md R240–R250). -/

namespace Sys2Proof.Machine

/-! ### The pairing hazard -/

/-- RESET and a stray ADV leave the core at `S_1`, so DEC meets the window of `S_2` where ENC met that of `S_1` (R250). -/
theorem rspData_dec_after_stray_adv {block : Block} {s t u v w : State} (hc : s.cfg = true)
    (hG : s.state = Config.G) (ht : exec (.enc 2#4 block) s = .next t)
    (hu : exec .reset t = .next u) (hv : exec .adv u = .next v)
    (hw : exec (.dec 2#4 (low16 t.rspData)) v = .next w) :
    w.rspData =
      zext64 (block ^^^ keystreamWindow s.seed 1 ^^^ keystreamWindow s.seed 2) := by
  rw [exec_enc_of_cfg hc] at ht
  cases ht
  rw [exec_reset_of_cfg (by exact hc)] at hu
  cases hu
  rw [exec_adv_of_cfg (by exact hc)] at hv
  cases hv
  rw [exec_dec_eq_exec_enc, exec_enc_of_cfg (by exact hc)] at hw
  cases hw
  simp [keyWindow, hG, keystreamWindow, keystream]

/-- Refutes O57 with program P6: seed 5 and block 0x4869, where `K_1 = 0x0062` and `K_2 = 0x6F93`; DEC answers 0x2798. -/
theorem not_strayAdvanceStillDecrypts : ¬ Obligations.StrayAdvanceStillDecrypts := by
  intro h
  obtain ⟨t, u, v, w, ht, hu, hv, hw, hback⟩ :=
    h 0x4869#16 { State.reset with cfg := true, seed := 5#64 } rfl rfl
  have hanswer : w.rspData = 0x2798#64 :=
    (rspData_dec_after_stray_adv rfl rfl ht hu hv hw).trans (by decide)
  exact absurd (hanswer.symm.trans hback) (by decide)

/-! ### Hardware reset -/

/-- No response is presented in IDLE, whatever the pins are (R60). -/
theorem rspValid_of_idle (p : PortIn) {s : State} (hp : s.phase = .idle) :
    rspValid p s = false := by
  simp [rspValid, hp]

/-- Settles O31: the outputs are 0 under reset, whose edge ends in IDLE, where no response stands and commands are accepted. -/
theorem hardwareResetEdge : Obligations.HardwareResetEdge := by
  intro s hr
  obtain ⟨-, houtputs⟩ := readyAndValidReadPhaseAndResetOnly
  obtain ⟨hready, hvalid⟩ := (houtputs s.pins s).1 hr
  refine ⟨hready, hvalid, _, step_of_reset hr, rfl, rfl, rfl, rfl, rfl, rfl, rfl, rfl,
    fun p => ⟨rspValid_of_idle p rfl, fun hp => ?_⟩⟩
  obtain ⟨hidle, -⟩ := (houtputs p (hardwareReset s.nextPins)).2 hp
  exact ⟨hidle.2 rfl, fun hv => (accepted_iff _ _).2 ⟨hp, hv, rfl⟩⟩

end Sys2Proof.Machine
end
